-- ==== Sys2Proof/Word.lean ====
section
/-!
DEFINITION. The words and units every other file of the model is written in: B-bit words and 12-bit units as
numbers, fields as lists of words, bytes of the image store, and the two settings that fix the field format (R1).
-/

namespace Sys2Proof

/-- A word of a data field, below 2^B (R6), or a 12-bit unit of a frame (R177). -/
abbrev Word := Nat

/-- A data field: its W+1 words in the order they pass on the cable, check word last (R6). -/
abbrev Field := List Word

/-- One byte of a packed image (R7). -/
abbrev Byte := BitVec 8

/-- The word width strap (R1). -/
inductive WordWidth where
  | b12
  | b16
  | b18
deriving DecidableEq, Repr

/-- B, the width of every word in bits (R1). -/
def WordWidth.bits : WordWidth → Nat
  | .b12 => 12
  | .b16 => 16
  | .b18 => 18

/-- The words-per-sector strap (R1). -/
inductive SectorWords where
  | w64
  | w128
  | w256
deriving DecidableEq, Repr

/-- W, the number of data words per sector (R1). -/
def SectorWords.count : SectorWords → Nat
  | .w64 => 64
  | .w128 => 128
  | .w256 => 256

end Sys2Proof
end

