-- ==== Sys2Proof/Config.lean ====
section
/-!
DEFINITION. What the manual fixes for every part (sizes, fixed times) and the one value it leaves undefined.
-/

namespace Sys2Proof.Config

/-- Map entries and store slots (R38, R40). -/
def capacity : Nat := 1024

/-- Jobs the recovery queue holds (R60). -/
def queueRoom : Nat := 32

/-- Copies the capture set holds (R68). -/
def copyRoom : Nat := 7

/-- Rungs a ladder holds (R84). -/
def rungRoom : Nat := 16

/-- The end of the 12-bit values: every unit lies below it (R177). -/
def unitRange : Nat := 4096

/-- The largest two-unit value, where times in seconds saturate (R35, R202). -/
def maxTwoUnit : Nat := 16777215

/-- Where the counters of the log, the sweep and the heads saturate (R146, R162, R172). -/
def maxCount : Nat := 65535

/-- One millisecond in the clock's microseconds. -/
def ms : Nat := 1000

/-- One second in the clock's microseconds. -/
def second : Nat := 1000000

/-- The INDEX period the mark generator uses before any has been measured, 25 ms (R26, R128). -/
def defaultPeriod : Nat := 25000

/-- The settle of a MARGIN issued with the recorded offset UNKNOWN, 10 ms (R121). -/
def unknownSettle : Nat := 10000

/-- How long FAULT may stay raised after an episode's CLEAR, 50 ms (R125). -/
def episodeLimit : Nat := 50000

/-- The part revision of the status frame (R205). -/
def partRevision : Nat := 0x240

/-- FREE VALUE (log 21): byte `i` of a slot no image was ever written into. R7: "a slot's contents are undefined until
an image is first written into it". Safe: nothing can be proved of it. -/
opaque unwrittenByte (slot i : Nat) : Byte

end Sys2Proof.Config
end

