-- ==== Sys2Proof/Syntax.lean ====
section
/-!
DEFINITION. The commands of the block: one constructor for each row of spec/opcode_table.json. The table gives no
operand fields, so the operands are those the rules name. `dt` is the time in microseconds since the command before
this one (log 1); a timer's expiry carries none, because its instant is fixed by the state (log 2).
-/

namespace Sys2Proof

/-- Read strobe (R203). -/
inductive Strobe where
  | early
  | nominal
  | late
deriving DecidableEq, Repr

/-- Head offset IN, CENTRE or OUT (R203). -/
inductive Offset where
  | inward
  | centre
  | outward
deriving DecidableEq, Repr

/-- The end of a span of write data (R14, R34): its `dt`, and the bits clocked in it on the write data line. -/
structure WriteTail where
  dt : Nat
  bits : List Bool
deriving DecidableEq, Repr

/-- The steps of the part, one for each row of the opcode table. -/
inductive Instr where
  /-- POWER_UP (R201): the straps read (R1) and the drive's five levels at that moment. -/
  | powerUp (width : WordWidth) (words : SectorWords) (offset : Fin 4) (bitRate : Nat)
      (ready onCylinder positionError fault protect : Bool)
  /-- POSITION (R19): the cylinder argument, 0 to 1023. -/
  | position (dt cyl : Nat)
  /-- HEAD (R21): the head argument, 0 to 15. -/
  | head (dt h : Nat)
  /-- RETURN (R19). -/
  | returnOrder (dt : Nat)
  /-- MARGIN (R21). -/
  | margin (dt : Nat) (strobe : Strobe) (offset : Offset)
  /-- TARGET_READ (R28): the sector argument, 0 to 63. -/
  | targetRead (dt sec : Nat)
  /-- TARGET_WRITE (R28): the sector argument, 0 to 63. -/
  | targetWrite (dt sec : Nat)
  /-- CLEAR (R23). -/
  | clear (dt : Nat)
  /-- READ_GATE (R16). -/
  | readGate (dt : Nat)
  /-- READ_GATE_FALLS (R16). -/
  | readGateFalls (dt : Nat)
  /-- WRITE_GATE (R30). -/
  | writeGate (dt : Nat)
  /-- WRITE_GATE_FALLS (R41): the bits clocked on the write data line since the last command that brought write data. -/
  | writeGateFalls (tail : WriteTail)
  /-- WRITE_FIELD_FULL (R14): the words written. -/
  | writeFieldFull (dt : Nat) (field : List Nat)
  /-- WRITE_CLOCK_TIMEOUT (R14): the bits clocked before the clock stopped. -/
  | writeClockTimeout (tail : WriteTail)
  /-- COMMAND_FRAME_REFUSED (R179): the words written to service sector 0. -/
  | commandFrameRefused (dt : Nat) (field : List Nat)
  /-- SET_GEOMETRY (R190). -/
  | setGeometry (dt tag cyls heads secs : Nat)
  /-- SET_PARAMETERS (R191): select mask, then the five values. -/
  | setParameters (dt tag mask withholdLimit quietInterval positionTimeout workCode restCode : Nat)
  /-- LOAD_ZONE (R93): head 0xFFF is ANY. -/
  | loadZone (dt tag index head low high ladder : Nat)
  /-- CLEAR_ZONE (R93). -/
  | clearZone (dt tag index : Nat)
  /-- SET_LADDER_HEADER (R87). -/
  | setLadderHeader (dt tag ladder m l budget : Nat)
  /-- LOAD_RUNG (R88): the two units of the rung record (R206). -/
  | loadRung (dt tag ladder index rung0 rung1 : Nat)
  /-- CLEAR_LADDER (R89). -/
  | clearLadder (dt tag ladder : Nat)
  /-- SET_HEAD (R169): select mask, threshold, score. -/
  | setHead (dt tag head mask threshold score : Nat)
  /-- START_SWEEP (R148): base, limit, first track and stop, each two units (R202). -/
  | startSweep (dt tag base0 base1 limit0 limit1 first0 first1 stop0 stop1 : Nat)
  /-- SET_SWEEP_STOP (R158): stop, two units. -/
  | setSweepStop (dt tag stop0 stop1 : Nat)
  /-- ABORT_SWEEP (R159). -/
  | abortSweep (dt tag : Nat)
  /-- QUEUE_SECTOR (R52): the address pair (R202). -/
  | queueSector (dt tag addr0 addr1 : Nat)
  /-- RELEASE_ENTRY (R54): the address pair. -/
  | releaseEntry (dt tag addr0 addr1 : Nat)
  /-- IMPORT_PAGE (R44): the address pair, the page and the body's image units. -/
  | importPage (dt tag addr0 addr1 page : Nat) (units : List Nat)
  /-- EXPORT_PAGE (R198): the address pair and the page. -/
  | exportPage (dt tag addr0 addr1 page : Nat)
  /-- READ_MAP (R199): the start address pair. -/
  | readMap (dt tag addr0 addr1 : Nat)
  /-- READ_QUEUE (R200): the position, 1 for the head. -/
  | readQueue (dt tag pos : Nat)
  /-- READ_HEALTH (R195): the group. -/
  | readHealth (dt tag group : Nat)
  /-- READ_LOG (R175): the position from the newest. -/
  | readLog (dt tag pos : Nat)
  /-- CLEAR_LOG (R176). -/
  | clearLog (dt tag : Nat)
  /-- READ_LADDER (R194). -/
  | readLadder (dt tag ladder : Nat)
  /-- READ_ZONES (R194). -/
  | readZones (dt tag : Nat)
  /-- ACTIVATE (R186). -/
  | activate (dt tag : Nat)
  /-- CAPTIVE_ON (R187). -/
  | captiveOn (dt tag : Nat)
  /-- CAPTIVE_OFF (R187). -/
  | captiveOff (dt tag : Nat)
  /-- PASSIVATE (R188). -/
  | passivate (dt tag : Nat)
  /-- DRIVE_MATCH (R17). -/
  | driveMatch (dt : Nat)
  /-- CAPTURE_FULL (R12): the words taken in and the bit rate measured from the read clock (R33). -/
  | captureFull (dt : Nat) (field : List Nat) (bitRate : Nat)
  /-- READ_CLOCK_TIMEOUT (R12). -/
  | readClockTimeout (dt : Nat)
  /-- SERVED_TRANSFER_ENDS (R29). -/
  | servedTransferEnds (dt : Nat)
  /-- DRIVE_INDEX (R124). -/
  | driveIndex (dt : Nat)
  /-- DRIVE_READY_FALLS (R126). -/
  | driveReadyFalls (dt : Nat)
  /-- DRIVE_READY_RISES (R124). -/
  | driveReadyRises (dt : Nat)
  /-- DRIVE_FAULT_RISES (R125). -/
  | driveFaultRises (dt : Nat)
  /-- DRIVE_FAULT_FALLS (R125). -/
  | driveFaultFalls (dt : Nat)
  /-- POSITIONING_STEP_COMPLETES (R121): the drive's ON CYLINDER rises. -/
  | positioningStepCompletes (dt : Nat)
  /-- POSITIONING_STEP_FAILS (R121): the drive raises POSITION ERROR. -/
  | positioningStepFails (dt : Nat)
  /-- POSITION_TIMEOUT (R121). -/
  | positionTimeout
  /-- MARGIN_UNKNOWN_SETTLE (R121). -/
  | marginUnknownSettle
  /-- FAULT_EPISODE_TIMEOUT (R125). -/
  | faultEpisodeTimeout
  /-- INDEX_WATCHDOG (R126). -/
  | indexWatchdog
  /-- GENERATED_INDEX (R128). -/
  | generatedIndex
  /-- GENERATED_MATCH (R128). -/
  | generatedMatch
  /-- VIEW_SETTLE (R19). -/
  | viewSettle
  /-- QUIET_INTERVAL (R131). -/
  | quietInterval
  /-- WITHHOLD_LIMIT (R37). -/
  | withholdLimit
  /-- VOTE_COMPLETES (R114). -/
  | voteCompletes (dt : Nat)
  /-- WORK_DURATION_REACHED (R143). -/
  | workDurationReached
  /-- REST_ENDS (R144). -/
  | restEnds
  /-- IDLE_TIMER (R142). -/
  | idleTimer
  /-- DRIVE_PROTECT_CHANGES (R24): the new level of the drive's PROTECT. -/
  | driveProtectChanges (dt : Nat) (level : Bool)
deriving DecidableEq, Repr

end Sys2Proof
end

