-- ==== Sys2Proof/Decode.lean ====
section
/-!
DEFINITION. From bits to commands. The opcode table gives no row any bits, so `decodeTableWord` answers none. What the
part itself decodes are the command frames of R206: `decodeFrame` reads a command from the units of a frame, total on any
units, and `encodeFrame` writes the units of one.
-/

namespace Sys2Proof

/-- The command that a word spells by the table's bits: the table gives none (every row's `fields` is empty). -/
def decodeTableWord (_nbits _w : Nat) : Option Instr := none

/-- The mark of a command frame (R177). -/
def commandMark : Nat := 0xC3A

/-- A unit of a frame; units past its end are 0. -/
def unitAt (us : List Nat) (k : Nat) : Nat := us.getD k 0

/-- The command a frame's units name (R179, R206): none when unit 1 is not a command code. The mark is not looked at
here, and units a command does not use are ignored. The command is given no time of its own. -/
def decodeFrame (us : List Nat) : Option Instr :=
  let tag := unitAt us 2
  let a := unitAt us
  match unitAt us 1 with
  | 1 => some (.setGeometry 0 tag (a 3) (a 4) (a 5))
  | 2 => some (.setParameters 0 tag (a 3) (a 4) (a 5) (a 6) (a 7) (a 8))
  | 3 => some (.loadZone 0 tag (a 3) (a 4) (a 5) (a 6) (a 7))
  | 4 => some (.clearZone 0 tag (a 3))
  | 5 => some (.setLadderHeader 0 tag (a 3) (a 4) (a 5) (a 6))
  | 6 => some (.loadRung 0 tag (a 3) (a 4) (a 5) (a 6))
  | 7 => some (.clearLadder 0 tag (a 3))
  | 8 => some (.setHead 0 tag (a 3) (a 4) (a 5) (a 6))
  | 9 => some (.startSweep 0 tag (a 3) (a 4) (a 5) (a 6) (a 7) (a 8) (a 9) (a 10))
  | 10 => some (.setSweepStop 0 tag (a 3) (a 4))
  | 11 => some (.abortSweep 0 tag)
  | 12 => some (.queueSector 0 tag (a 3) (a 4))
  | 13 => some (.releaseEntry 0 tag (a 3) (a 4))
  | 14 => some (.importPage 0 tag (a 3) (a 4) (a 5) (us.drop 8))
  | 15 => some (.exportPage 0 tag (a 3) (a 4) (a 5))
  | 16 => some (.readMap 0 tag (a 3) (a 4))
  | 17 => some (.readQueue 0 tag (a 3))
  | 18 => some (.readHealth 0 tag (a 3))
  | 19 => some (.readLog 0 tag (a 3))
  | 20 => some (.clearLog 0 tag)
  | 21 => some (.readLadder 0 tag (a 3))
  | 22 => some (.readZones 0 tag)
  | 23 => some (.activate 0 tag)
  | 24 => some (.captiveOn 0 tag)
  | 25 => some (.captiveOff 0 tag)
  | 26 => some (.passivate 0 tag)
  | _ => none

/-- A command frame's units: mark, code, tag and arguments (R206), up to the last unit the command uses. -/
def frameOf (code tag : Nat) (args : List Nat) : List Nat := commandMark :: code :: tag :: args

/-- The units of the frame that carries a command, or none for a row that is no service command (R206). Units past the
last are 0 in the frame. -/
def encodeFrame : Instr → Option (List Nat)
  | .setGeometry _ t c h s => some (frameOf 1 t [c, h, s])
  | .setParameters _ t m a b c d e => some (frameOf 2 t [m, a, b, c, d, e])
  | .loadZone _ t i h lo hi l => some (frameOf 3 t [i, h, lo, hi, l])
  | .clearZone _ t i => some (frameOf 4 t [i])
  | .setLadderHeader _ t k m l b => some (frameOf 5 t [k, m, l, b])
  | .loadRung _ t k i r0 r1 => some (frameOf 6 t [k, i, r0, r1])
  | .clearLadder _ t k => some (frameOf 7 t [k])
  | .setHead _ t h m th sc => some (frameOf 8 t [h, m, th, sc])
  | .startSweep _ t b0 b1 l0 l1 f0 f1 s0 s1 => some (frameOf 9 t [b0, b1, l0, l1, f0, f1, s0, s1])
  | .setSweepStop _ t s0 s1 => some (frameOf 10 t [s0, s1])
  | .abortSweep _ t => some (frameOf 11 t [])
  | .queueSector _ t a0 a1 => some (frameOf 12 t [a0, a1])
  | .releaseEntry _ t a0 a1 => some (frameOf 13 t [a0, a1])
  | .importPage _ t a0 a1 p us => some (frameOf 14 t ([a0, a1, p, 0, 0] ++ us))
  | .exportPage _ t a0 a1 p => some (frameOf 15 t [a0, a1, p])
  | .readMap _ t a0 a1 => some (frameOf 16 t [a0, a1])
  | .readQueue _ t p => some (frameOf 17 t [p])
  | .readHealth _ t g => some (frameOf 18 t [g])
  | .readLog _ t p => some (frameOf 19 t [p])
  | .clearLog _ t => some (frameOf 20 t [])
  | .readLadder _ t k => some (frameOf 21 t [k])
  | .readZones _ t => some (frameOf 22 t [])
  | .activate _ t => some (frameOf 23 t [])
  | .captiveOn _ t => some (frameOf 24 t [])
  | .captiveOff _ t => some (frameOf 25 t [])
  | .passivate _ t => some (frameOf 26 t [])
  | .powerUp _ _ _ _ _ _ _ _ _ | .position _ _ | .head _ _ | .returnOrder _ | .margin _ _ _ | .targetRead _ _
  | .targetWrite _ _ | .clear _ | .readGate _ | .readGateFalls _ | .writeGate _ | .writeGateFalls _
  | .writeFieldFull _ _ | .writeClockTimeout _ | .commandFrameRefused _ _ | .driveMatch _ | .captureFull _ _ _
  | .readClockTimeout _ | .servedTransferEnds _ | .driveIndex _ | .driveReadyFalls _ | .driveReadyRises _
  | .driveFaultRises _ | .driveFaultFalls _ | .positioningStepCompletes _ | .positioningStepFails _
  | .positionTimeout | .marginUnknownSettle | .faultEpisodeTimeout | .indexWatchdog | .generatedIndex
  | .generatedMatch | .viewSettle | .quietInterval | .withholdLimit | .voteCompletes _ | .workDurationReached
  | .restEnds | .idleTimer | .driveProtectChanges _ _ => none

/-- A service command given at a time `dt` after the command before it; the other rows are left as they are. -/
def Instr.atTime (dt : Nat) : Instr → Instr
  | .setGeometry _ t c h s => .setGeometry dt t c h s
  | .setParameters _ t m a b c d e => .setParameters dt t m a b c d e
  | .loadZone _ t i h lo hi l => .loadZone dt t i h lo hi l
  | .clearZone _ t i => .clearZone dt t i
  | .setLadderHeader _ t k m l b => .setLadderHeader dt t k m l b
  | .loadRung _ t k i r0 r1 => .loadRung dt t k i r0 r1
  | .clearLadder _ t k => .clearLadder dt t k
  | .setHead _ t h m th sc => .setHead dt t h m th sc
  | .startSweep _ t b0 b1 l0 l1 f0 f1 s0 s1 => .startSweep dt t b0 b1 l0 l1 f0 f1 s0 s1
  | .setSweepStop _ t s0 s1 => .setSweepStop dt t s0 s1
  | .abortSweep _ t => .abortSweep dt t
  | .queueSector _ t a0 a1 => .queueSector dt t a0 a1
  | .releaseEntry _ t a0 a1 => .releaseEntry dt t a0 a1
  | .importPage _ t a0 a1 p us => .importPage dt t a0 a1 p us
  | .exportPage _ t a0 a1 p => .exportPage dt t a0 a1 p
  | .readMap _ t a0 a1 => .readMap dt t a0 a1
  | .readQueue _ t p => .readQueue dt t p
  | .readHealth _ t g => .readHealth dt t g
  | .readLog _ t p => .readLog dt t p
  | .clearLog _ t => .clearLog dt t
  | .readLadder _ t k => .readLadder dt t k
  | .readZones _ t => .readZones dt t
  | .activate _ t => .activate dt t
  | .captiveOn _ t => .captiveOn dt t
  | .captiveOff _ t => .captiveOff dt t
  | .passivate _ t => .passivate dt t
  | i => i

end Sys2Proof
end

