-- ==== Sys2Proof/Machine/State.lean ====
section
/-!
DEFINITION. The state of the block, one structure for each block that owns state (00, block overview), and its value
right after reset. Plain data throughout. Times are instants or spans of the clock, in microseconds.
-/

namespace Sys2Proof.Machine

/-- Why a step could stop. It has no constructor: every command of the table has an effect the manual states, and what
a command finds inapplicable changes nothing (log 4), so no step of this block faults. -/
inductive Fault where
deriving DecidableEq, Repr

/-- Why a command could be rejected. -/
inductive Refusal where
  /-- A command without a meaning, raised by `exec` alone; no arm uses it. Safe: the machine stops. -/
  | notModelled (mnemonic : String)
deriving DecidableEq, Repr

/-! ### Addresses, geometry and orders -/

/-- A sector address c/h/s (R2). -/
structure Addr where
  cyl : Nat
  head : Nat
  sec : Nat
deriving DecidableEq, Repr

/-- The pack geometry (R2). -/
structure Geometry where
  cylinders : Nat
  heads : Nat
  sectors : Nat
deriving DecidableEq, Repr

/-- The straps as read at power-up (R1). -/
structure Straps where
  width : WordWidth
  words : SectorWords
  offset : Fin 4
  bitRate : Nat
deriving DecidableEq, Repr

/-- The parameter record (R191); times in milliseconds. -/
structure Params where
  withholdLimit : Nat
  quietInterval : Nat
  positionTimeout : Nat
  workCode : Nat
  restCode : Nat
deriving DecidableEq, Repr

/-- An order on either cable (02, 2.1). -/
inductive Order where
  | position (cyl : Nat)
  | head (h : Nat)
  | ret
  | margin (strobe : Strobe) (offset : Offset)
  | targetRead (sec : Nat)
  | targetWrite (sec : Nat)
  | clear
deriving DecidableEq, Repr

/-- A record of the recent-orders list: the order with its argument, and the second it was taken (R35). -/
structure OrderRecord where
  order : Order
  time : Nat
deriving DecidableEq, Repr

/-- What one command drives onto the cables (log 6): orders and gates to the drive, marks and data to the controller. -/
inductive Signal where
  /-- An order issued on the drive cable (R121, R122, R20). -/
  | order (o : Order)
  /-- READ GATE raised or lowered on the drive (R12, R32). -/
  | readGate (raised : Bool)
  /-- WRITE GATE raised or lowered on the drive (R34). -/
  | writeGate (raised : Bool)
  /-- A full field of the controller's write data passed to the drive (R34). -/
  | writeData (field : Field)
  /-- Other bits of the controller's write data passed to the drive: of a field cut short, or after a full one (R34). -/
  | writeBits (bits : List Bool)
  /-- An INDEX pulse to the controller, relayed or generated (R26). -/
  | index
  /-- A MATCH pulse to the controller, relayed or generated (R17, R128). -/
  | matchPulse
  /-- A served or service field begins to be sent at a bit rate (R29, R31). -/
  | serve (field : Field) (bitRate : Nat)
  /-- The generated read clock stops after the last bit (R29). -/
  | serveEnds
  /-- A field of the drive relayed to the controller in full (R13). -/
  | relay (field : Field)
deriving DecidableEq, Repr

/-! ### Controller port -/

/-- The kinds of controller operation (R15). -/
inductive OpKind where
  | servedRead
  | servedWrite
  | liveRead
  | liveWrite
  | serviceRead
  | serviceWrite
  | withheld
deriving DecidableEq, Repr

/-- The phases of a controller operation (R15). -/
inductive Phase where
  | awaitingDrive
  | awaitingMatch
  | awaitingGate
  | transferring
deriving DecidableEq, Repr

/-- The current controller operation (R15), with the instant its generated MATCH is due (R128), whether its WRITE GATE
was refused (R30), whether its written field has ended (R14), and the status frame built at MATCH (R183). -/
structure Op where
  kind : OpKind
  addr : Addr
  phase : Phase
  matchDue : Option Nat
  gateRefused : Bool
  fieldEnded : Bool
  built : Option Field
deriving DecidableEq, Repr

/-- The withholding record (R36). `limitPassed`: the limit passed while a capture was in flight, which is allowed to
complete first (R37, R76). -/
structure Withhold where
  addr : Addr
  begun : Nat
  limit : Nat
  limitPassed : Bool
deriving DecidableEq, Repr

/-- How a withholding ended (R184). -/
inductive EndKind where
  | recovered
  | lost
  | limit
  | positionFailure
  | rest
  | order
  | driveLost
  | reseatFailed
deriving DecidableEq, Repr

/-- The withholding report (R184); the duration in milliseconds. -/
structure WithholdReport where
  addr : Addr
  kind : EndKind
  duration : Nat
deriving DecidableEq, Repr

/-- The controller port: the view and the lines it stores (R18), the current operation (R15), the recent orders (R35),
withholding (R36, R184) and the measured served rate (R33). `seekFailed`: a POSITION ERROR has been shown since the last
POSITION or RETURN; `errorCleared`: it has been cleared, and shown ON CYLINDER stays false until the next of them (R23,
log 13). -/
structure Controller where
  cyl : Nat
  head : Nat
  strobe : Strobe
  offset : Offset
  shownOnCylinder : Bool
  shownPositionError : Bool
  shownFault : Bool
  seekFailed : Bool
  errorCleared : Bool
  settleDue : Option Nat
  op : Option Op
  recentOrders : List OrderRecord
  withhold : Option Withhold
  report : Option WithholdReport
  servedRate : Option Nat
deriving DecidableEq, Repr

/-! ### Drive port and capture unit -/

/-- The drive's level lines as the drive port sees them (02, 2.1). -/
structure Lines where
  ready : Bool
  onCylinder : Bool
  positionError : Bool
  fault : Bool
  protect : Bool
deriving DecidableEq, Repr

/-- The drive record: where the drive is; `none` is UNKNOWN (R120). -/
structure DriveRecord where
  cyl : Option Nat
  head : Option Nat
  strobe : Option Strobe
  offset : Option Offset
deriving DecidableEq, Repr

/-- The drive condition (R124). -/
inductive Condition where
  | lost
  | turning
deriving DecidableEq, Repr

/-- The holder of the drive (R129). -/
inductive Holder where
  | nobody
  | controller
  | recovery
  | sweep
deriving DecidableEq, Repr

/-- What the holder becomes when the step in flight ends (R132, R134). -/
inductive PassOn where
  | stays
  | toNobody
  | toController
deriving DecidableEq, Repr

/-- A part of a positioning (R95, R122, R138, R149). -/
inductive Move where
  /-- CLEAR, if the drive's POSITION ERROR is raised. -/
  | clearIfError
  /-- RETURN, wherever the drive stands. -/
  | restore
  /-- POSITION to the wanted cylinder, after a RETURN. -/
  | backTo
  /-- POSITION to the wanted cylinder, if the actual cylinder differs. -/
  | reach
  /-- HEAD, if the actual head differs. -/
  | select
  /-- Empty the capture set: reset copies before. -/
  | emptyCopies
  /-- MARGIN, if the actual margin differs. -/
  | margin
deriving DecidableEq, Repr

/-- What a positioning is made for. -/
inductive Purpose where
  /-- The re-seat of a live operation or a live pass (R32, R37). -/
  | reseatLive
  /-- The re-seat at the beginning of withholding (R36). -/
  | reseatWithhold
  /-- A rung of the head job (R95). -/
  | rung
  /-- A track of the sweep (R149). -/
  | sweep
deriving DecidableEq, Repr

/-- A positioning in progress: the wanted place and margin, the moves still to make, whether it has issued a step
(R121), and while a retry runs, the moves to go on with after it (R138). -/
structure Travel where
  purpose : Purpose
  cyl : Nat
  head : Nat
  strobe : Strobe
  offset : Offset
  moves : List Move
  stepped : Bool
  retry : Option (List Move)
deriving DecidableEq, Repr

/-- The positioning step in flight (R121): its order, the move it carries out (`none` for a relayed order, R20), when
it was issued, its timeout as taken at issue, and whether it is a MARGIN issued with the recorded offset UNKNOWN. -/
structure Step where
  order : Order
  move : Option Move
  issuedAt : Nat
  timeout : Nat
  unknownOffset : Bool
deriving DecidableEq, Repr

/-- The party a capture serves (R12). -/
inductive Party where
  | live
  | recovery
  | sweep
deriving DecidableEq, Repr

/-- The capture in flight (R12): its party and sector, whether the drive's MATCH has come, and the INDEX pulses since
its target was issued. -/
structure Capture where
  party : Party
  addr : Addr
  matched : Bool
  indexes : Nat
deriving DecidableEq, Repr

/-- A fault episode: the instant of its CLEAR and the move whose step it ended as failed (R125). -/
structure Episode where
  clearedAt : Nat
  failedMove : Option Move
deriving DecidableEq, Repr

/-- The drive port: the drive's lines and the gates raised on it, the drive record (R120), the condition and INDEX
keeping (R124), the mark generator's INDEX schedule (R128), the holder (R129), what is in flight (R121, R125), the
quiet interval (R131), the duty limiter (R141) and the capture unit's capture (R12). -/
structure DrivePort where
  lines : Lines
  readGate : Bool
  writeGate : Bool
  record : DriveRecord
  condition : Condition
  period : Option Nat
  lastIndex : Option Nat
  indexChain : Bool
  indexCount : Nat
  clearArmed : Bool
  lastRelayed : Option Nat
  genNext : Option Nat
  genPeriod : Nat
  holder : Holder
  passOn : PassOn
  step : Option Step
  travel : Option Travel
  episode : Option Episode
  heldOrders : List Order
  quietDue : Option Nat
  capture : Option Capture
  work : Nat
  idle : Nat
  resting : Bool
  restStart : Nat
deriving DecidableEq, Repr

/-! ### Substitution map and image store -/

/-- Who first made an entry (R39). -/
inductive Origin where
  | controller
  | sweep
  | service
deriving DecidableEq, Repr

/-- How a RECOVERED entry's image was obtained (R39); SEARCH carries its flips. -/
inductive Method where
  | clean
  | vote
  | search (flips : Nat)
  | imported
deriving DecidableEq, Repr

/-- The state of an entry that holds a slot (R39); an OVERLAY's method is WRITTEN. -/
inductive Settled where
  | recovered (method : Method)
  | lost
  | overlay
deriving DecidableEq, Repr

/-- A map entry's state with the fields that state has (R39). -/
inductive EntryBody where
  | pending
  | settled (kind : Settled) (readsSpent : Nat) (weak : Option Nat) (slot : Nat)
deriving DecidableEq, Repr

/-- A map entry (R39). -/
structure Entry where
  addr : Addr
  origin : Origin
  body : EntryBody
deriving DecidableEq, Repr

/-- The claim of an accepted WRITE GATE (R41). -/
structure Claim where
  addr : Addr
  entry : Bool
  slot : Option Nat
deriving DecidableEq, Repr

/-- The import staging image (R44): the units received so far, in order, and the bytes of the words they give, packed as
a slot packs them (R7). -/
structure Staging where
  addr : Addr
  nextPage : Nat
  units : List Nat
  image : List Byte
deriving DecidableEq, Repr

/-- The substitution map, the image store, the write claim and the staging image (R38, R40, R41, R44). The store
lists the slots in use with their packed bytes. -/
structure MapStore where
  entries : List Entry
  store : List (Nat × List Byte)
  claim : Option Claim
  staging : Option Staging
deriving DecidableEq, Repr

/-! ### Recovery sequencer, vote engine, tables -/

/-- The class of a job (R60). -/
inductive JobClass where
  | foreground
  | background
deriving DecidableEq, Repr

/-- The state of a job (R64). -/
inductive JobState where
  | waiting
  | active
  | voting
deriving DecidableEq, Repr

/-- A job record (R61). `lastAmbiguous`: its last vote that reached its outcome was AMBIGUOUS (R79). -/
structure Job where
  addr : Addr
  cls : JobClass
  ladder : Nat
  rungIndex : Nat
  readsDone : Nat
  readsSpent : Nat
  positionFailures : Nat
  state : JobState
  lastWeak : Option Nat
  origin : Origin
  lastAmbiguous : Bool
deriving DecidableEq, Repr

/-- What follows a rung that fails (R85). -/
inductive OnFailure where
  | cont
  | skip
  | stop
deriving DecidableEq, Repr

/-- A rung record (R85). -/
structure Rung where
  strobe : Strobe
  offset : Offset
  reads : Nat
  restoreFirst : Bool
  resetCopies : Bool
  voteAfter : Bool
  onFailure : OnFailure
deriving DecidableEq, Repr

/-- A ladder: its header and its rung list (R84). -/
structure Ladder where
  m : Nat
  l : Nat
  budget : Nat
  rungs : List Rung
deriving DecidableEq, Repr

/-- A loaded zone entry; head `none` is ANY (R93). -/
structure Zone where
  head : Option Nat
  low : Nat
  high : Nat
  ladder : Nat
deriving DecidableEq, Repr

/-- The ladder and zone tables (R84, R93). -/
structure Tables where
  ladders : List Ladder
  zones : List (Option Zone)
deriving DecidableEq, Repr

/-- The recovery sequencer: the queue in its order (R60), the capture set (R68), the last vote result (R68) and the
working rung (R90). -/
structure Sequencer where
  queue : List Job
  copies : List Field
  lastVote : Option Field
  workingRung : Option Rung
deriving DecidableEq, Repr

/-- The inputs of a vote (R106): the copies in capture order, the margin M and the search limit L. -/
structure VoteInputs where
  copies : List Field
  m : Nat
  l : Nat
deriving DecidableEq, Repr

/-- The vote in flight (R105). -/
structure Vote where
  owner : Addr
  inputs : VoteInputs
  image : Field
  weakCount : Nat
  weakBits : List Nat
  combination : Nat
  passes : Nat
  firstPass : Option Nat
  discard : Bool
deriving DecidableEq, Repr

/-- The waiting vote (R105). -/
structure WaitingVote where
  owner : Addr
  inputs : VoteInputs
  discard : Bool
deriving DecidableEq, Repr

/-- The vote engine; IDLE while no vote is in flight (R105). -/
structure Engine where
  inFlight : Option Vote
  waiting : Option WaitingVote
deriving DecidableEq, Repr

/-! ### Sweep, health, log, service channel -/

/-- The state of the sweep (R147). -/
inductive SweepState where
  | idle
  | waiting
  | sweeping
  | blocked
  | done
deriving DecidableEq, Repr

/-- Why an admission was refused (R45, R146). -/
inductive BlockCause where
  | fullQueue
  | fullMap
deriving DecidableEq, Repr

/-- How far the present track read has come (R149 to R151): the track is being reached, its first INDEX is awaited, the
first pass is at a sector, or the second pass has some sectors left. -/
inductive SweepPass where
  | reaching
  | awaitingIndex
  | first (nextSec : Nat)
  | second (left : List Nat)
deriving DecidableEq, Repr

/-- The sweep descriptor (R146) and the progress of the present track read, with the sectors marked SHORT (R151). -/
structure Sweep where
  base : Nat
  limit : Nat
  next : Nat
  stop : Nat
  state : SweepState
  cause : Option BlockCause
  refusalMet : Bool
  tracksRead : Nat
  tracksSkipped : Nat
  failuresFound : Nat
  pass : SweepPass
  marked : List Nat
deriving DecidableEq, Repr

/-- A head record (R162). -/
structure HeadRecord where
  score : Nat
  threshold : Nat
  worn : Bool
  cleanReads : Nat
  recoveries : Nat
  losses : Nat
deriving DecidableEq, Repr

/-- The kind of a LOST end (R79). -/
inductive LostKind where
  | unrecovered
  | ambiguous
  | positionFailure
deriving DecidableEq, Repr

/-- What an incident records by its kind (R173). -/
inductive IncidentKind where
  | jobLost (kind : LostKind) (addr : Addr) (ladder rung readsSpent : Nat) (weak : Option Nat)
  | driveLost
  | headWorn (head : Nat)
  | notAdmitted (addr : Addr)
deriving DecidableEq, Repr

/-- A log entry: the incident, its second, and the recent orders as they stood (R173). -/
structure Incident where
  kind : IncidentKind
  time : Nat
  orders : List OrderRecord
deriving DecidableEq, Repr

/-- The incident log: positions 1 to 8 (here in order), index, held count and lifetime count (R172). -/
structure IncidentLog where
  positions : List (Option Incident)
  index : Nat
  held : Nat
  lifetime : Nat
deriving DecidableEq, Repr

/-- The three operating modes (R185). -/
inductive Mode where
  | passive
  | active
  | captive
deriving DecidableEq, Repr

/-- The service channel: mode, geometry, parameters and the held response (R178, R185, R190, R191). -/
structure Service where
  mode : Mode
  geometry : Option Geometry
  params : Params
  heldResponse : Field
deriving DecidableEq, Repr

/-- The whole block, with the queue of waiting commands and the signals of the last one. -/
structure State where
  clock : Nat
  straps : Straps
  svc : Service
  ctl : Controller
  drv : DrivePort
  map : MapStore
  seq : Sequencer
  eng : Engine
  tables : Tables
  sweep : Sweep
  heads : List HeadRecord
  log : IncidentLog
  out : List Signal
  pending : List Instr
deriving DecidableEq, Repr

/-! ### Power-up values -/

/-- The header every ladder holds at power-up (R86). -/
def Ladder.empty : Ladder := ⟨2, 6, 40, []⟩

/-- The factory ladder (R86). -/
def Ladder.factory : Ladder :=
  { Ladder.empty with
    rungs :=
      [ ⟨.nominal, .centre, 3, false, false, true, .cont⟩,
        ⟨.early, .centre, 2, false, false, true, .cont⟩,
        ⟨.late, .centre, 2, false, false, true, .cont⟩,
        ⟨.nominal, .outward, 2, false, true, true, .cont⟩,
        ⟨.nominal, .inward, 2, false, true, true, .cont⟩,
        ⟨.nominal, .centre, 3, true, true, true, .stop⟩ ] }

/-- A head record at power-up (R162). -/
def HeadRecord.fresh : HeadRecord := ⟨100, 40, false, 0, 0, 0⟩

/-- The controller port at power-up (R18, R35, R36, R201). -/
def Controller.fresh : Controller :=
  { cyl := 0, head := 0, strobe := .nominal, offset := .centre, shownOnCylinder := false,
    shownPositionError := false, shownFault := false, seekFailed := false, errorCleared := false, settleDue := none,
    op := none, recentOrders := [], withhold := none, report := none, servedRate := none }

/-- The drive port at power-up (R120, R124, R128, R129, R141); the lines are the drive's own. READY and FAULT that stand
together then use up the LOST drive's one CLEAR, by the model's choice (log 18). -/
def DrivePort.fresh (lines : Lines) : DrivePort :=
  { lines := lines, readGate := false, writeGate := false, record := ⟨none, none, none, none⟩, condition := .lost,
    period := none, lastIndex := none, indexChain := false, indexCount := 0,
    clearArmed := !(lines.ready && lines.fault), lastRelayed := none,
    genNext := some Config.defaultPeriod, genPeriod := Config.defaultPeriod, holder := .nobody, passOn := .stays,
    step := none, travel := none, episode := none, heldOrders := [], quietDue := none, capture := none, work := 0,
    idle := 0, resting := false, restStart := 0 }

/-- The sweep at power-up (R146). -/
def Sweep.fresh : Sweep :=
  { base := 0, limit := 0, next := 0, stop := 0, state := .idle, cause := none, refusalMet := false, tracksRead := 0,
    tracksSkipped := 0, failuresFound := 0, pass := .reaching, marked := [] }

/-- The parameter record at power-up (R191). -/
def Params.fresh : Params := ⟨400, 200, 600, 0, 0⟩

/-- The NO COMMAND frame (R178): mark 0x3AC, tag 0, result code 10 and zeros, with the check word R9 makes for it. The
three units sum below 2^B for every width, so the check word is the complement of their sum. -/
def noCommandFrame (straps : Straps) : Field :=
  [0x3AC, 0, 10] ++ List.replicate (straps.words.count - 3) 0 ++ [2 ^ straps.width.bits - 1 - (0x3AC + 10)]

/-- The block after power-up with given straps and drive levels (R201). -/
def State.poweredUp (straps : Straps) (lines : Lines) (pending : List Instr) : State :=
  { clock := 0, straps := straps,
    svc := { mode := .passive, geometry := none, params := Params.fresh, heldResponse := noCommandFrame straps },
    ctl := Controller.fresh, drv := DrivePort.fresh lines, map := ⟨[], [], none, none⟩, seq := ⟨[], [], none, none⟩,
    eng := ⟨none, none⟩, tables := ⟨Ladder.factory :: List.replicate 7 Ladder.empty, List.replicate 16 none⟩,
    sweep := Sweep.fresh, heads := List.replicate 16 HeadRecord.fresh, log := ⟨List.replicate 8 none, 0, 0, 0⟩,
    out := [], pending := pending }

/-- The straps of `State.reset`: DESIGN CHOICE (log 3), the manual gives the settings a strap may have and no value. -/
def Straps.chosen : Straps := ⟨.b12, .w64, 0, 1000000⟩

/-- The drive's levels at `State.reset`: DESIGN CHOICE (log 3), they are inputs of the block. -/
def Lines.chosen : Lines := ⟨false, false, false, false, false⟩

/-- The machine right after reset (R201), with an empty command queue. -/
def State.reset : State := State.poweredUp Straps.chosen Lines.chosen []

end Sys2Proof.Machine
end

