-- ==== Sys2Proof/Machine/Operands.lean ====
section
/-!
DEFINITION. The operand forms: fields and their check (chapter 1), packed images (R7), the units of frames (R177, R202,
R203), sector addresses and their order (R2 to R5), and the vote over copies (chapter 6).
-/

namespace Sys2Proof.Machine

/-! ### Fields and the check -/

/-- B of the straps (R1). -/
def Straps.bits (st : Straps) : Nat := st.width.bits

/-- W of the straps (R1). -/
def Straps.data (st : Straps) : Nat := st.words.count

/-- The service cylinder V (R3). -/
def Straps.service (st : Straps) : Nat := 1020 + st.offset.val

/-- The first `n` words of what was clocked in, each cut to B bits; words after the last field position are ignored
(R12, R14) and a word that is not there is 0. -/
def takeWords (b : Nat) : Nat → List Nat → Field
  | 0, _ => []
  | n + 1, [] => 0 :: takeWords b n []
  | n + 1, w :: ws => w % 2 ^ b :: takeWords b n ws

/-- The field of (W+1)×B bits taken in from clocked words (R6, log 26). -/
def takeField (st : Straps) (ws : List Nat) : Field := takeWords st.bits (st.data + 1) ws

/-- One addition of the folded sum, with its fold (R8). -/
def foldAdd (b acc w : Nat) : Nat := if acc + w < 2 ^ b then acc + w else acc + w - 2 ^ b + 1

/-- The folded sum of a sequence of B-bit words (R8). -/
def foldedSum (b : Nat) (ws : List Nat) : Nat := ws.foldl (foldAdd b) 0

/-- The check word of W data words: the B-bit complement of their folded sum (R9). -/
def checkWord (b : Nat) (data : List Nat) : Nat := 2 ^ b - 1 - foldedSum b data

/-- The check of R10 on a full-length field. -/
def passes (b : Nat) (f : Field) : Bool := decide (foldedSum b f = 2 ^ b - 1)

/-- The field of all zero words (R11, R47). -/
def zeroField (st : Straps) : Field := List.replicate (st.data + 1) 0

/-! ### Packed images -/

/-- The B bits of a word, most significant first (R6). -/
def wordBits (b w : Nat) : List Bool := (List.range b).map fun k => w.testBit (b - 1 - k)

/-- The bits of a field in field position order (R6). -/
def fieldBits (b : Nat) (f : Field) : List Bool := f.flatMap (wordBits b)

/-- The number a list of bits spells, most significant first. -/
def bitsToNat (bs : List Bool) : Nat := bs.foldl (fun n x => 2 * n + x.toNat) 0

/-- Cut a list of bits into `n` groups of `k`, padded with 0 at the end (R7). -/
def groups (k : Nat) : Nat → List Bool → List (List Bool)
  | 0, _ => []
  | n + 1, bs => (bs.take k ++ List.replicate (k - bs.length) false) :: groups k n (bs.drop k)

/-- ⌈(W+1)×B / 8⌉, the bytes of an image (R7). -/
def imageBytes (b words : Nat) : Nat := (words * b + 7) / 8

/-- An image in its slot: field position 0 is the most significant bit of byte 0, the pad bits are 0 (R7). -/
def packImage (b : Nat) (f : Field) : List Byte :=
  (groups 8 (imageBytes b f.length) (fieldBits b f)).map fun g => BitVec.ofNat 8 (bitsToNat g)

/-- The field a slot's bytes hold; its pad bits are not part of it (R7). -/
def unpackImage (b words : Nat) (bytes : List Byte) : Field :=
  (groups b words (bytes.flatMap fun x => wordBits 8 x.toNat)).map bitsToNat

/-! ### Units -/

/-- A value's bits above bit 11 (R202). -/
def highUnit (v : Nat) : Nat := v / Config.unitRange

/-- A value's low 12 bits (R202). -/
def lowUnit (v : Nat) : Nat := v % Config.unitRange

/-- A two-unit value as sent (R202). -/
def twoUnits (v : Nat) : List Nat := [highUnit v, lowUnit v]

/-- A two-unit value as received (R202). -/
def fromUnits (hi lo : Nat) : Nat := hi * Config.unitRange + lo

/-- The code of an absent single-unit value (R202). -/
def absentUnit : Nat := 0xFFF

/-- An optional two-unit value (R202). -/
def optTwoUnits : Option Nat → List Nat
  | some v => twoUnits v
  | none => [absentUnit, absentUnit]

/-- An address pair (R202). -/
def addrUnits (a : Addr) : List Nat := [a.cyl, a.head * 64 + a.sec]

/-- An optional address pair (R202). -/
def optAddrUnits : Option Addr → List Nat
  | some a => addrUnits a
  | none => [absentUnit, absentUnit]

/-- A list cut or padded with zeros to `n` units (R205). -/
def padTo (n : Nat) (us : List Nat) : List Nat := us.take n ++ List.replicate (n - us.length) 0

/-- A frame as a field: W units, each in the low 12 bits of its word, then the check word (R177, R9). -/
def frameField (st : Straps) (units : List Nat) : Field :=
  let data := (padTo st.data units).map lowUnit
  data ++ [checkWord st.bits data]

/-- The units of a written field: the low 12 bits of its first W words (R177). -/
def fieldUnits (st : Straps) (f : Field) : List Nat := (f.take st.data).map lowUnit

/-- An image's 2(W+1) units: each word's high unit, then its low unit (R44, R209). -/
def imageUnits (f : Field) : List Nat := f.flatMap twoUnits

/-- The words of image units, low B bits kept (R44). -/
def assemble (b : Nat) : List Nat → Field
  | hi :: lo :: rest => fromUnits hi lo % 2 ^ b :: assemble b rest
  | _ => []

/-- The image units of page 0, 1 or 2: W−8, W−8 and 18 of them (R44, R198). -/
def pageUnits (st : Straps) (page : Nat) (us : List Nat) : List Nat :=
  (us.drop (page * (st.data - 8))).take (if page = 2 then 18 else st.data - 8)

/-! ### Codes of the enumerated fields (R203) -/

/-- Strobe code (R203). -/
def strobeCode : Strobe → Nat
  | .early => 0
  | .nominal => 1
  | .late => 2

/-- Strobe of a code (R203). -/
def strobeOf : Nat → Option Strobe
  | 0 => some .early
  | 1 => some .nominal
  | 2 => some .late
  | _ => none

/-- Offset code (R203). -/
def offsetCode : Offset → Nat
  | .inward => 0
  | .centre => 1
  | .outward => 2

/-- Offset of a code (R203). -/
def offsetOf : Nat → Option Offset
  | 0 => some .inward
  | 1 => some .centre
  | 2 => some .outward
  | _ => none

/-- On-failure code (R203). -/
def OnFailure.code : OnFailure → Nat
  | .cont => 0
  | .skip => 1
  | .stop => 2

/-- On-failure action of a code (R203). -/
def onFailureOf : Nat → Option OnFailure
  | 0 => some .cont
  | 1 => some .skip
  | 2 => some .stop
  | _ => none

/-- Mode code (R203). -/
def Mode.code : Mode → Nat
  | .passive => 0
  | .active => 1
  | .captive => 2

/-- Drive condition code (R203). -/
def Condition.code : Condition → Nat
  | .lost => 0
  | .turning => 1

/-- Holder code (R203). -/
def Holder.code : Holder → Nat
  | .nobody => 0
  | .controller => 1
  | .recovery => 2
  | .sweep => 3

/-- Sweep state code (R203). -/
def SweepState.code : SweepState → Nat
  | .idle => 0
  | .waiting => 1
  | .sweeping => 2
  | .blocked => 3
  | .done => 4

/-- Block cause code (R203). -/
def causeCode : Option BlockCause → Nat
  | none => 0
  | some .fullQueue => 1
  | some .fullMap => 2

/-- Origin code (R203). -/
def Origin.code : Origin → Nat
  | .controller => 0
  | .sweep => 1
  | .service => 2

/-- Class code (R203). -/
def JobClass.code : JobClass → Nat
  | .foreground => 0
  | .background => 1

/-- Job state code (R203). -/
def JobState.code : JobState → Nat
  | .waiting => 0
  | .active => 1
  | .voting => 2

/-- Withholding end code (R203). -/
def EndKind.code : EndKind → Nat
  | .recovered => 1
  | .lost => 2
  | .limit => 3
  | .positionFailure => 4
  | .rest => 5
  | .order => 6
  | .driveLost => 7
  | .reseatFailed => 8

/-- Entry state code (R203). -/
def EntryBody.stateCode : EntryBody → Nat
  | .pending => 1
  | .settled (.recovered _) _ _ _ => 2
  | .settled .lost _ _ _ => 3
  | .settled .overlay _ _ _ => 4

/-- Method code (R203). -/
def EntryBody.methodCode : EntryBody → Nat
  | .settled (.recovered .clean) _ _ _ => 1
  | .settled (.recovered .vote) _ _ _ => 2
  | .settled (.recovered (.search _)) _ _ _ => 3
  | .settled (.recovered .imported) _ _ _ => 4
  | .settled .overlay _ _ _ => 5
  | _ => 0

/-- The condition code of a map entry (R204). -/
def EntryBody.conditionCode : EntryBody → Nat
  | .pending => 0
  | .settled .lost _ _ _ => 1
  | .settled .overlay _ _ _ => 2
  | .settled (.recovered .clean) _ _ _ => 3
  | .settled (.recovered .vote) _ _ _ => 4
  | .settled (.recovered .imported) _ _ _ => 5
  | .settled (.recovered (.search flips)) _ _ _ => 5 + flips

/-- A flag's code (R203). -/
def flagCode (b : Bool) : Nat := if b then 1 else 0

/-- Order kind code (R203). -/
def Order.kindCode : Order → Nat
  | .position _ => 1
  | .head _ => 2
  | .ret => 3
  | .margin _ _ => 4
  | .targetRead _ => 5
  | .targetWrite _ => 6
  | .clear => 7

/-- The argument unit of an order record (R209). -/
def Order.argUnit : Order → Nat
  | .position c => c
  | .head h => h
  | .ret => absentUnit
  | .margin st off => strobeCode st * 16 + offsetCode off
  | .targetRead s => s
  | .targetWrite s => s
  | .clear => absentUnit

/-- The four units of an order record (R209). -/
def OrderRecord.units (r : OrderRecord) : List Nat := [r.order.kindCode, r.order.argUnit] ++ twoUnits r.time

/-- The weak code of a map entry: 14 is 14 or more, 15 absent (R204). -/
def weakCode4 : Option Nat → Nat
  | none => 15
  | some w => min w 14

/-- The weak code of a queue job: 6 is 6 or more, 7 absent (R204). -/
def weakCode3 : Option Nat → Nat
  | none => 7
  | some w => min w 6

/-- The rung record of two units as reported (R206). -/
def Rung.units (r : Rung) : List Nat :=
  [strobeCode r.strobe * 256 + offsetCode r.offset * 16 + r.reads,
   flagCode r.restoreFirst * 2048 + flagCode r.resetCopies * 1024 + flagCode r.voteAfter * 512 + r.onFailure.code]

/-- The number of reads a rung record's field is clamped to, 1 to 7 (R85). -/
def clampReads (n : Nat) : Nat := max 1 (min n 7)

/-- The rung record of two units as received: absent when an enumerated field is outside its list (R85, R205, R206). -/
def rungOf (u0 u1 : Nat) : Option Rung :=
  match strobeOf (u0 / 256 % 16), offsetOf (u0 / 16 % 16), onFailureOf (u1 % 16) with
  | some st, some off, some act =>
    some ⟨st, off, clampReads (u0 % 16), u1.testBit 11, u1.testBit 10, u1.testBit 9, act⟩
  | _, _, _ => none

/-- A zone entry of three units (R209). -/
def zoneUnits : Option Zone → List Nat
  | none => [0, 0, 0]
  | some z =>
    [2048 + (match z.head with | none => 1024 | some h => h * 16) + z.ladder, z.low, z.high]

/-- A head record of six units (R209). -/
def HeadRecord.units (r : HeadRecord) : List Nat :=
  [flagCode r.worn * 2048 + r.score, r.threshold,
   highUnit r.cleanReads * 256 + highUnit r.recoveries * 16 + highUnit r.losses,
   lowUnit r.cleanReads, lowUnit r.recoveries, lowUnit r.losses]

/-- A queue job of four units (R209). -/
def Job.units (j : Job) : List Nat :=
  [j.addr.cyl * 4 + j.state.code, j.addr.head * 256 + j.addr.sec * 4 + j.origin.code,
   j.readsSpent * 16 + j.cls.code * 8 + weakCode3 j.lastWeak,
   j.ladder * 512 + j.rungIndex * 16 + j.readsDone * 2 + j.positionFailures]

/-- An incident's kind, address, ladder, rung, reads and weak count units (R209): absent fields are 0xFFF, and a HEAD
WORN address carries the head alone (R202). -/
def IncidentKind.units : IncidentKind → List Nat
  | .jobLost kind a ladder rung reads weak =>
    (match kind with | .unrecovered => 1 | .ambiguous => 2 | .positionFailure => 3) ::
      addrUnits a ++ [ladder, rung, reads] ++ optTwoUnits weak
  | .driveLost => 4 :: List.replicate 7 absentUnit
  | .headWorn h => [5, 0xFFE, h * 64] ++ List.replicate 5 absentUnit
  | .notAdmitted a => 6 :: addrUnits a ++ List.replicate 5 absentUnit

/-- A log entry of 27 units (R209). -/
def Incident.units (i : Incident) : List Nat :=
  i.kind.units ++ twoUnits i.time ++ [i.orders.length] ++ padTo 16 (i.orders.flatMap OrderRecord.units)

/-! ### Addresses -/

/-- Lexicographic order of sector addresses (R5). -/
def Addr.lt (a b : Addr) : Bool :=
  decide (a.cyl < b.cyl ∨ (a.cyl = b.cyl ∧ (a.head < b.head ∨ (a.head = b.head ∧ a.sec < b.sec))))

/-- Is c/h/s real under a geometry? (R2) -/
def Geometry.real (g : Geometry) (a : Addr) : Bool :=
  decide (a.cyl < g.cylinders ∧ a.head < g.heads ∧ a.sec < g.sectors)

/-- The number of tracks (R4). -/
def Geometry.tracks (g : Geometry) : Nat := g.cylinders * g.heads

/-- The successor of a real address, if it has one (R5). -/
def Geometry.successor (g : Geometry) (a : Addr) : Option Addr :=
  if a.sec + 1 < g.sectors then some ⟨a.cyl, a.head, a.sec + 1⟩
  else if a.head + 1 < g.heads then some ⟨a.cyl, a.head + 1, 0⟩
  else if a.cyl + 1 < g.cylinders then some ⟨a.cyl + 1, 0, 0⟩
  else none

/-- The real address an address pair names, if it names one: bits 11 to 10 of the second unit must be clear (R202). -/
def Geometry.addrOf (g : Geometry) (u0 u1 : Nat) : Option Addr :=
  let a : Addr := ⟨u0, u1 / 64, u1 % 64⟩
  if g.real a then some a else none

/-! ### The vote -/

/-- The bit of a field at a field position (R6). -/
def bitAt (b : Nat) (f : Field) (p : Nat) : Bool := (f.getD (p / b) 0).testBit (b - 1 - p % b)

/-- The field with the bit at a field position inverted (R112). -/
def flipBit (b : Nat) (f : Field) (p : Nat) : Field := f.modify (p / b) (fun w => w ^^^ 2 ^ (b - 1 - p % b))

/-- The columns of the copies' bits: at each of `n` field positions, the bits in capture order (R107). -/
def columns : Nat → List (List Bool) → List (List Bool)
  | 0, _ => []
  | n + 1, rows => rows.map (fun r => r.headD false) :: columns n (rows.map List.tail)

/-- The voted value of a column: the majority, and on a tie the newest copy's bit (R107). -/
def votedBit (col : List Bool) : Bool :=
  let ones := col.count true
  let zeros := col.length - ones
  if zeros < ones then true else if ones < zeros then false else col.getLastD false

/-- The margin of a column: ones against zeros without sign (R108). -/
def marginOf (col : List Bool) : Nat :=
  let ones := col.count true
  max ones (col.length - ones) - min ones (col.length - ones)

/-- The field positions of the columns whose margin is below M, in ascending order (R108, R109). -/
def weakFrom (m : Nat) : Nat → List (List Bool) → List Nat
  | _, [] => []
  | p, col :: cols => if marginOf col < m then p :: weakFrom m (p + 1) cols else weakFrom m (p + 1) cols

/-- Combination c of a voted image: position j_i inverted for every bit i of c that is 1 (R112). -/
def combinationOf (b : Nat) (image : Field) (weakBits : List Nat) (c : Nat) : Field :=
  (weakBits.zipIdx.filter fun p => c.testBit p.2).foldl (fun f p => flipBit b f p.1) image

/-- The number of 1 bits of c among the first `w`: how many weak bits a combination inverts (R112). -/
def flipsOf (w c : Nat) : Nat := (List.range w).countP fun i => c.testBit i

/-- What a vote ends with (R114). -/
inductive VoteEnd where
  | acceptedVote
  | acceptedSearch (image : Field) (flips : Nat)
  | ambiguous
  | tooWeak
  | failed
deriving DecidableEq, Repr

/-- The search from the combination the vote has reached, over the `n` combinations after it: it stops at the second
pass (R112, R113). -/
def search (b : Nat) (image : Field) (weakBits : List Nat) : Nat → Vote → Vote
  | 0, v => v
  | n + 1, v =>
    let c := v.combination + 1
    let v := { v with combination := c }
    if passes b (combinationOf b image weakBits c) then
      match v.firstPass with
      | none => search b image weakBits n { v with passes := 1, firstPass := some c }
      | some _ => { v with passes := 2 }
    else search b image weakBits n v

/-- A vote as it is made: the voted image, the weak count, and the list when the count is 8 or less (R105, R107 to
R109). -/
def startVote (st : Straps) (owner : Addr) (inp : VoteInputs) (discard : Bool) : Vote :=
  let cols := columns ((st.data + 1) * st.bits) (inp.copies.map (fieldBits st.bits))
  let weak := weakFrom inp.m 0 cols
  { owner := owner, inputs := inp,
    image := (groups st.bits (st.data + 1) (cols.map votedBit)).map bitsToNat,
    weakCount := weak.length, weakBits := if weak.length ≤ 8 then weak else [],
    combination := 0, passes := 0, firstPass := none, discard := discard }

/-- The outcome of a vote run to its completion (R110, R111, R113): the combinations are evaluated at the completion, by the
model's choice (log 44). -/
def voteEnd (st : Straps) (v : Vote) : VoteEnd :=
  if passes st.bits v.image then .acceptedVote
  else if v.weakCount = 0 then .failed
  else if v.inputs.l < v.weakCount then .tooWeak
  else
    let v := search st.bits v.image v.weakBits (2 ^ v.weakCount - 1) v
    match v.firstPass with
    | none => .failed
    | some c =>
      if v.passes = 1 then
        .acceptedSearch (combinationOf st.bits v.image v.weakBits c) (flipsOf v.weakCount c)
      else .ambiguous

end Sys2Proof.Machine
end

