-- ==== Sys2Proof/Machine/Flags.lean ====
section
/-!
DEFINITION. The flags and lines that are computed from the state: what is real, the free counts and shown PROTECT (R24,
R41), shown READY (R24), the duty limiter's durations and whether rest is due (R141, R143), worn heads (R167), and who
may be granted the drive (R65, R130).
-/

namespace Sys2Proof.Machine

/-! ### The mode and the view -/

/-- The device works on its own account only in ACTIVE and CAPTIVE mode (R130, R136). -/
def isPassive (s : State) : Bool := decide (s.svc.mode = .passive)

/-- The service cylinder V (R3). -/
def serviceCylinder (s : State) : Nat := s.straps.service

/-- Does the view stand on V? An order taken while it does belongs to the service cylinder (R18). -/
def viewOnService (s : State) : Bool := decide (s.ctl.cyl = serviceCylinder s)

/-- Is a cylinder real under the geometry in force? (R2) -/
def realCylinder (s : State) (c : Nat) : Bool :=
  match s.svc.geometry with
  | none => false
  | some g => decide (c < g.cylinders)

/-- Is a sector address real under the geometry in force? (R2) -/
def realAddr (s : State) (a : Addr) : Bool :=
  match s.svc.geometry with
  | none => false
  | some g => g.real a

/-! ### The map's counts and the lines they drive -/

/-- The slot an entry names (R39). -/
def EntryBody.slot? : EntryBody → Option Nat
  | .pending => none
  | .settled _ _ _ k => some k

/-- The slots in use: those an entry names (R40). -/
def slotsInUse (s : State) : List Nat := s.map.entries.filterMap fun e => e.body.slot?

/-- The entries a claim holds (R41). -/
def entriesClaimed (s : State) : Nat :=
  match s.map.claim with
  | some c => if c.entry then 1 else 0
  | none => 0

/-- The slots a claim holds (R41). -/
def slotsClaimed (s : State) : List Nat :=
  match s.map.claim with
  | some c => c.slot.toList
  | none => []

/-- Free entries (R41). -/
def freeEntries (s : State) : Nat := Config.capacity - s.map.entries.length - entriesClaimed s

/-- Free slots (R41). -/
def freeSlots (s : State) : Nat := Config.capacity - (slotsInUse s).length - (slotsClaimed s).length

/-- Shown READY: the drive's in PASSIVE mode, else true (R24). -/
def shownReady (s : State) : Bool := if isPassive s then s.drv.lines.ready else true

/-- Shown PROTECT: the drive's in PASSIVE mode, else raised exactly while no entry or no slot is free (R24, R42). -/
def shownProtect (s : State) : Bool :=
  if isPassive s then s.drv.lines.protect else decide (freeEntries s = 0 ∨ freeSlots s = 0)

/-- The served rate: the measured one, or the strap bit rate (R29). -/
def servedRate (s : State) : Nat := s.ctl.servedRate.getD s.straps.bitRate

/-! ### The data paths of the cable -/

/-- The controller's write data and write clock are passed to the drive: a live write is in transfer (R34). -/
def writePathOpen (s : State) : Bool :=
  match s.ctl.op with
  | some o => decide (o.kind = .liveWrite ∧ o.phase = .transferring)
  | none => false

/-- The drive's write data line and write clock, while the controller drives `data` and `clock`: the controller's own, bit
for bit, on a live write in transfer, else data 0 and a quiet clock (R17, R34). -/
def driveWriteLines (data clock : Bool) (s : State) : Bool × Bool :=
  if writePathOpen s then (data, clock) else (false, false)


/-! ### The duty limiter -/

/-- The duration a work or rest code gives, in microseconds (R141). -/
def codeDuration (code : Nat) : Nat :=
  if code = 0 then 0
  else if code ≤ 240 then code * (5 * Config.second)
  else if code ≤ 250 then (code - 240) * (1800 * Config.second)
  else 28800 * Config.second

/-- The limiter is off when either code is 0 (R141). -/
def limiterOn (p : Params) : Bool := decide (p.workCode ≠ 0 ∧ p.restCode ≠ 0)

/-- The work duration (R141). -/
def workDuration (s : State) : Nat := codeDuration s.svc.params.workCode

/-- The rest duration (R141). -/
def restDuration (s : State) : Nat := codeDuration s.svc.params.restCode

/-- Rest is due: the work counter stands at or above the work duration, and no rest has begun (R143, R145). -/
def restDue (s : State) : Bool :=
  limiterOn s.svc.params && !s.drv.resting && decide (workDuration s ≤ s.drv.work)

/-- RECOVERY and SWEEP are the device's own holders (R142). -/
def Holder.isDevice : Holder → Bool
  | .nobody => false
  | .controller => false
  | .recovery => true
  | .sweep => true

/-- A retry sequence is in progress (R138). -/
def inRetry (s : State) : Bool :=
  match s.drv.travel with
  | some t => t.retry.isSome
  | none => false

/-- A point where a rest that is due begins: no capture, no positioning step and no retry in flight (R143). A fault
episode is no drive work in flight: the rest begins in it and ends it without judgement, by the model's choice (log
56). -/
def restPoint (s : State) : Bool := s.drv.capture.isNone && s.drv.step.isNone && !inRetry s

/-! ### Heads, jobs and grants -/

/-- The worn flag of a head (R167). -/
def isWorn (s : State) (h : Nat) : Bool :=
  match s.heads[h]? with
  | some r => r.worn
  | none => false

/-- The worn flag after a change of score or threshold (R167). -/
def evalWorn (r : HeadRecord) : HeadRecord :=
  if r.score ≤ r.threshold then { r with worn := true }
  else if r.threshold + 16 ≤ r.score then { r with worn := false }
  else r

/-- The head of the queue (R60). -/
def headJob (s : State) : Option Job := s.seq.queue.head?

/-- The job of a sector (R60). -/
def jobOf (s : State) (a : Addr) : Option Job := s.seq.queue.find? fun j => decide (j.addr = a)

/-- Mode, drive and limiter let the device's own parties work (R65, R130). -/
def deviceMayWork (s : State) : Bool :=
  !isPassive s && decide (s.drv.condition = .turning) && !s.drv.resting

/-- The drive's read data and read clock are passed to the controller: a live read is in transfer, and what the drive
produces is not for RECOVERY or SWEEP, which a grant after a LOST judgement can have made its holder (R16, R17). -/
def readPathOpen (s : State) : Bool :=
  !s.drv.holder.isDevice &&
    match s.ctl.op with
    | some o => decide (o.kind = .liveRead ∧ o.phase = .transferring)
    | none => false

/-- What reaches the controller of the drive's read data and read clock: both, bit for bit, while they are passed to it,
else nothing (R13, R16, R17). -/
def relayedReadLines (data clock : Bool) (s : State) : Bool × Bool :=
  if readPathOpen s then (data, clock) else (false, false)

/-- A live operation is current (R32). -/
def liveOp (s : State) : Bool :=
  match s.ctl.op with
  | some o => decide (o.kind = .liveRead ∨ o.kind = .liveWrite)
  | none => false

/-- The sector being withheld is this one (R36). -/
def isWithheld (s : State) (a : Addr) : Bool :=
  match s.ctl.withhold with
  | some w => decide (w.addr = a)
  | none => false

/-- The controller waits for the drive: a live operation or a withholding to re-seat for (R32, R36). -/
def awaitsDrive (s : State) : Bool :=
  match s.ctl.op with
  | some o =>
    decide (o.phase = .awaitingDrive ∧ (o.kind = .liveRead ∨ o.kind = .liveWrite ∨ o.kind = .withheld))
  | none => false

/-- A command frame can arrive: a service write to head 0, sector 0 is transferring and its field has not ended (R16,
R31, R179). -/
def acceptsFrame (s : State) : Bool :=
  match s.ctl.op with
  | some o =>
    decide (o.kind = .serviceWrite ∧ o.addr.head = 0 ∧ o.addr.sec = 0 ∧ o.phase = .transferring) && !o.fieldEnded
  | none => false

/-- Time in seconds, as records carry it (R35, R173). -/
def seconds (s : State) : Nat := min (s.clock / Config.second) Config.maxTwoUnit

/-- A saturating counter's rise by one (R146, R162, R172). -/
def countUp (n : Nat) : Nat := min (n + 1) Config.maxCount

end Sys2Proof.Machine
end

