-- ==== Sys2Proof/Machine/Ops.lean ====
section
/-!
DEFINITION. The shared operations on time, the two cables, the drive record and the holder: the passing of time (R142),
orders issued to the drive (R120, R121), the capture's abandonment (R12), giving up and taking the drive (R132, R134),
the incident log (R172), the head records (R163 to R169) and the sweep's notices (R157).
-/

namespace Sys2Proof.Machine

/-! ### Time and signals -/

/-- Time passes: the clock, and while the limiter is on and not resting the work counter under a device holder, which
holds still in PASSIVE mode (R136), or else the idle timer, which returns the work counter to 0 when it reaches the rest
duration (R142). Once it has, the timer is held at that duration, and is brought back to a shortened one, by the model's
choice (log 58). -/
def advance (dt : Nat) (s : State) : State :=
  let s := { s with clock := s.clock + dt }
  if limiterOn s.svc.params && !s.drv.resting then
    if s.drv.holder.isDevice then
      if isPassive s then s else { s with drv.work := min (s.drv.work + dt) (max s.drv.work (workDuration s)) }
    else
      { s with
        drv.idle := min (s.drv.idle + dt) (restDuration s)
        drv.work := if restDuration s ≤ s.drv.idle + dt then 0 else s.drv.work }
  else s

/-- Time passes up to an instant, if it still lies ahead (log 2). -/
def advanceTo (t : Nat) (s : State) : State := advance (t - s.clock) s

/-- A command begins `dt` after the one before it, with nothing driven yet (log 1, log 6). -/
def begin (dt : Nat) (s : State) : State := { advance dt s with out := [] }

/-- A timer's expiry begins at its due instant (log 2). -/
def beginAt (t : Nat) (s : State) : State := { advanceTo t s with out := [] }

/-- A command that finds nothing to act on begins at the present instant (log 4). -/
def beginNow (s : State) : State := { s with out := [] }

/-- Drive a signal onto a cable (log 6). -/
def emit (x : Signal) (s : State) : State := { s with out := s.out ++ [x] }

/-! ### Orders to the drive -/

/-- An order issued on the drive cable: what the drive record and the drive's lines become at issue (R120; 02, 2.1: a
seek or a known offset change drops ON CYLINDER, CLEAR clears POSITION ERROR, log 7). -/
def issueOrder (o : Order) (s : State) : State :=
  let s := emit (.order o) s
  match o with
  | .position _ => { s with drv.record.cyl := none, drv.lines.onCylinder := false }
  | .ret => { s with drv.record.cyl := none, drv.lines.onCylinder := false }
  | .head h => { s with drv.record.head := some h }
  | .margin st off =>
    if s.drv.record.offset = some off then { s with drv.record.strobe := some st }
    else
      { s with
        drv.record.strobe := some st
        drv.record.offset := none
        drv.lines.onCylinder := if s.drv.record.offset.isSome then false else s.drv.lines.onCylinder }
  | .targetRead _ => s
  | .targetWrite _ => s
  | .clear => { s with drv.lines.positionError := false }

/-- Is an order a positioning step: POSITION, RETURN, or a MARGIN that changes the offset? An UNKNOWN offset differs
from every value (R120, R121). -/
def isStep (o : Order) (s : State) : Bool :=
  match o with
  | .position _ => true
  | .ret => true
  | .margin _ off => decide (s.drv.record.offset ≠ some off)
  | .head _ => false
  | .targetRead _ => false
  | .targetWrite _ => false
  | .clear => false

/-- Issue a positioning step and hold it in flight with the position timeout of this moment (R121, R192). -/
def issueStep (o : Order) (move : Option Move) (s : State) : State :=
  let unknown := match o with
    | .margin _ _ => s.drv.record.offset.isNone
    | _ => false
  { issueOrder o s with
    drv.step := some
      { order := o, move := move, issuedAt := s.clock, timeout := s.svc.params.positionTimeout * Config.ms,
        unknownOffset := unknown } }

/-- A step completes: its record field takes its value and the drive stands on cylinder (R120, R121). -/
def completeStep (st : Step) (s : State) : State :=
  let s := { s with drv.step := none, drv.lines.onCylinder := true }
  match st.order with
  | .position c => { s with drv.record.cyl := some c }
  | .ret => { s with drv.record.cyl := some 0 }
  | .margin _ off => { s with drv.record.offset := some off }
  | .head _ => s
  | .targetRead _ => s
  | .targetWrite _ => s
  | .clear => s

/-- READ GATE on the drive falls, if it is raised (R12). -/
def lowerReadGate (s : State) : State :=
  if s.drv.readGate then emit (.readGate false) { s with drv.readGate := false } else s

/-- WRITE GATE on the drive falls, if it is raised (R34). -/
def lowerWriteGate (s : State) : State :=
  if s.drv.writeGate then emit (.writeGate false) { s with drv.writeGate := false } else s

/-! ### The holder -/

/-- Rest begins as far as the limiter's own fields go (R143). -/
def markResting (s : State) : State :=
  { s with drv.resting := true, drv.work := workDuration s, drv.restStart := s.clock }

/-- The holder changes. A rest that is due begins when the holder leaves RECOVERY or SWEEP (R143); the idle timer
returns to 0 when the holder becomes one of them (R142). -/
def setHolder (h : Holder) (s : State) : State :=
  let s := if s.drv.holder.isDevice && !h.isDevice && restDue s then markResting s else s
  { s with drv.holder := h, drv.idle := if h.isDevice then 0 else s.drv.idle }

/-- A recovery or sweep capture in flight is abandoned; a live capture is not (R12). -/
def abandonCapture (s : State) : State :=
  match s.drv.capture with
  | some c => if c.party = .live then s else lowerReadGate { s with drv.capture := none }
  | none => s

/-- The work a device party had in hand on the drive ends: capture, positioning and fault episode (R132, R134). That an
episode ends so, without judgement, also where the party gives up the drive is the model's choice (log 60). -/
def dropWork (s : State) : State := abandonCapture { s with drv.travel := none, drv.episode := none }

/-- The party gives up the drive: at once, or when its step in flight has ended (R134). A taking by the controller that
waits for the same step stands, at PASSIVATE too, by the model's choice (R131, R136, R188; log 59). -/
def giveUp (s : State) : State :=
  if s.drv.holder.isDevice then
    let s := dropWork s
    if s.drv.step.isSome then
      if s.drv.passOn = .stays then { s with drv.passOn := .toNobody } else s
    else setHolder .nobody s
  else s

/-- An ACTIVE job becomes WAITING and keeps its counts (R69, R73). -/
def standDown (s : State) : State :=
  { s with seq.queue := s.seq.queue.map fun j => if j.state = .active then { j with state := .waiting } else j }

/-- The present track read's progress is discarded (R152, R156). -/
def resetTrack (w : Sweep) : Sweep :=
  { w with cause := none, refusalMet := false, pass := .reaching, marked := [] }

/-- A track read is interrupted: the sweep waits to read the track again from its start (R156). -/
def interruptSweep (s : State) : State :=
  if s.sweep.state = .sweeping then { s with sweep := { resetTrack s.sweep with state := .waiting } } else s

/-- The controller takes the drive, whoever holds it; a step in flight for a device party ends first (R132). -/
def takeDrive (s : State) : State :=
  let s := { s with drv.quietDue := none }
  if s.drv.holder.isDevice then
    let s := dropWork (interruptSweep (standDown s))
    if s.drv.step.isSome then { s with drv.passOn := .toController } else setHolder .controller s
  else setHolder .controller { s with drv.passOn := .stays }

/-- A controller use of the drive ends and its quiet interval starts (R131); a use that outlived a LOST judgement has no
holding left and starts none, by the model's choice (log 45). -/
def endUse (s : State) : State :=
  if s.drv.holder = .controller ∨ s.drv.passOn = .toController then
    { s with drv.quietDue := some (s.clock + s.svc.params.quietInterval * Config.ms) }
  else s

/-! ### The incident log -/

/-- An incident is taken: written at the position after the index, with the time and a copy of the recent orders (R172,
R173). -/
def logIncident (k : IncidentKind) (s : State) : State :=
  let i := s.log.index % 8
  { s with
    log.positions := s.log.positions.set i (some ⟨k, seconds s, s.ctl.recentOrders⟩)
    log.index := i + 1
    log.held := min (s.log.held + 1) 8
    log.lifetime := countUp s.log.lifetime }

/-! ### The health monitor -/

/-- A head's record changes and its worn flag is evaluated, with a HEAD WORN incident when the flag goes from clear to
set (R167, R168). -/
def changeHead (h : Nat) (f : HeadRecord → HeadRecord) (s : State) : State :=
  match s.heads[h]? with
  | none => s
  | some r =>
    let r' := evalWorn (f r)
    let s := { s with heads := s.heads.set h r' }
    if r'.worn && !r.worn then logIncident (.headWorn h) s else s

/-- The credit of a clean first look (R163). -/
def creditCleanLook (h : Nat) (s : State) : State :=
  changeHead h (fun r => { r with score := min (r.score + 1) 200, cleanReads := countUp r.cleanReads }) s

/-- The debit of a failing live read (R164). -/
def debitLiveRead (h : Nat) (s : State) : State := changeHead h (fun r => { r with score := r.score - 2 }) s

/-- The surcharge of a recovery's method (R165). -/
def surcharge : Method → Nat
  | .clean => 0
  | .vote => 2
  | .search _ => 4
  | .imported => 0

/-- The notice of a job that ended RECOVERED (R165). -/
def noticeRecovered (h : Nat) (m : Method) (readsSpent : Nat) (s : State) : State :=
  changeHead h
    (fun r => { r with score := r.score - (min readsSpent 15 + surcharge m), recoveries := countUp r.recoveries }) s

/-- The notice of a job that ended LOST (R166). -/
def noticeLost (h : Nat) (s : State) : State :=
  changeHead h (fun r => { r with score := r.score - 24, losses := countUp r.losses }) s

/-! ### Notices to the sweep -/

/-- A job has left the queue or an entry has left the map (R157). -/
def noticeSweep (s : State) : State :=
  match s.sweep.state with
  | .blocked => { s with sweep.state := .waiting, sweep.cause := none }
  | .sweeping => { s with sweep.cause := none }
  | _ => s

end Sys2Proof.Machine
end

