-- ==== Sys2Proof/Machine/MapOps.lean ====
section
/-!
DEFINITION. The substitution map and the image store: entries in address order (R38), slots and their bytes (R7, R40),
claims (R41, R43) and the transitions that give an entry an image (R46 to R49).
-/

namespace Sys2Proof.Machine

/-! ### The image store -/

/-- Write a slot's bytes into the store's list, which stays in rising slot order (R40). -/
def putSlot (k : Nat) (bytes : List Byte) : List (Nat × List Byte) → List (Nat × List Byte)
  | [] => [(k, bytes)]
  | x :: xs =>
    if k < x.1 then (k, bytes) :: x :: xs
    else if k = x.1 then (k, bytes) :: xs
    else x :: putSlot k bytes xs

/-- A slot rejoins the free set; its contents are not kept (R40). -/
def dropSlot (k : Nat) (st : List (Nat × List Byte)) : List (Nat × List Byte) := st.filter fun x => decide (x.1 ≠ k)

/-- The store's canonical form: slots strictly rising (R40). -/
def Store.wf (st : List (Nat × List Byte)) : Bool := decide (st.Pairwise fun a b => a.1 < b.1)

/-- The bytes of a slot; a slot no image was written into reads as the free value (R7, log 21). -/
def slotBytes (s : State) (k : Nat) : List Byte :=
  match s.map.store.find? fun x => decide (x.1 = k) with
  | some x => x.2
  | none => (List.range (imageBytes s.straps.bits (s.straps.data + 1))).map (Config.unwrittenByte k)

/-- The field a slot holds (R7). -/
def readSlot (s : State) (k : Nat) : Field := unpackImage s.straps.bits (s.straps.data + 1) (slotBytes s k)

/-- Write a field into a slot, packed, pad bits 0 (R7, R40). -/
def writeSlot (k : Nat) (f : Field) (s : State) : State :=
  { s with map.store := putSlot k (packImage s.straps.bits f) s.map.store }

/-- The lowest slot number at or after `k` that is not taken, looking at `n` of them (R40). -/
def lowestFree (taken : List Nat) : Nat → Nat → Nat
  | 0, k => k
  | n + 1, k => if taken.contains k then lowestFree taken n (k + 1) else k

/-- The free, unclaimed slot with the lowest number (R40). -/
def freeSlot (s : State) : Nat := lowestFree (slotsInUse s ++ slotsClaimed s) Config.capacity 0

/-- The slot a transition takes for a sector: a standing claim's slot for that sector, which the claim passes on, or
the lowest free one (R40, R43). -/
def slotFor (s : State) (a : Addr) : Nat :=
  match s.map.claim with
  | some c => if c.addr = a then c.slot.getD (freeSlot s) else freeSlot s
  | none => freeSlot s

/-- The claim of a sector passes its slot to the sector's entry and holds no slot afterwards (R43). -/
def passClaimSlot (a : Addr) (s : State) : State :=
  match s.map.claim with
  | some c => if c.addr = a then { s with map.claim := some { c with slot := none } } else s
  | none => s

/-! ### Entries -/

/-- The entry of a sector (R38). -/
def entryOf (s : State) (a : Addr) : Option Entry := s.map.entries.find? fun e => decide (e.addr = a)

/-- A new entry stands before the first entry whose address is greater (R38). -/
def insertEntry (e : Entry) : List Entry → List Entry
  | [] => [e]
  | x :: xs => if e.addr.lt x.addr then e :: x :: xs else x :: insertEntry e xs

/-- Add an entry to the map (R38). -/
def addEntry (e : Entry) (s : State) : State := { s with map.entries := insertEntry e s.map.entries }

/-- Give a sector's entry a new body and origin-preserving state (R39). -/
def setBody (a : Addr) (b : EntryBody) (s : State) : State :=
  { s with map.entries := s.map.entries.map fun e => if e.addr = a then { e with body := b } else e }

/-- A slot taken for a sector's entry: image written, then the entry names it (R40, R46, R47). -/
def settleInNewSlot (a : Addr) (kind : Settled) (image : Field) (reads : Nat) (weak : Option Nat) (s : State) : State :=
  let k := slotFor s a
  setBody a (.settled kind reads weak k) (writeSlot k image (passClaimSlot a s))

/-- An entry keeps its own slot and the new image is written over the old (R40). -/
def settleInOwnSlot (a : Addr) (kind : Settled) (image : Field) (reads : Nat) (weak : Option Nat) (k : Nat)
    (s : State) : State :=
  setBody a (.settled kind reads weak k) (writeSlot k image s)

/-- An entry leaves the map, its slot becomes free, and the sweep is notified (R38, R40, R42). -/
def dropEntry (a : Addr) (s : State) : State :=
  match entryOf s a with
  | none => s
  | some e =>
    let s := { s with
      map.entries := s.map.entries.filter fun x => decide (x.addr ≠ a)
      map.store := match e.body.slot? with
        | some k => dropSlot k s.map.store
        | none => s.map.store }
    noticeSweep s

/-- A PENDING entry becomes RECOVERED with the outcome's image (R46). -/
def mapRecovered (a : Addr) (m : Method) (image : Field) (reads : Nat) (weak : Option Nat) (s : State) : State :=
  settleInNewSlot a (.recovered m) image reads weak s

/-- A PENDING entry becomes LOST with its best image, or an all-zero field (R47). -/
def mapLost (a : Addr) (image : Option Field) (reads : Nat) (weak : Option Nat) (s : State) : State :=
  settleInNewSlot a .lost (image.getD (zeroField s.straps)) reads weak s

/-- What a claim for a sector needs, or `none` when the write is refused (R30, R41). -/
def claimFor (s : State) (a : Addr) : Option Claim :=
  match entryOf s a with
  | none => if freeEntries s = 0 ∨ freeSlots s = 0 then none else some ⟨a, true, some (freeSlot s)⟩
  | some e =>
    match e.body with
    | .pending => if freeSlots s = 0 then none else some ⟨a, false, some (freeSlot s)⟩
    | .settled _ _ _ _ => some ⟨a, false, none⟩

/-- The claim ends; what it still holds returns to the free set (R41). -/
def releaseClaim (s : State) : State := { s with map.claim := none }

/-- The reads spent and weak count of an entry, read through from its job while PENDING (R39). -/
def entryCounts (s : State) (e : Entry) : Nat × Option Nat :=
  match e.body with
  | .settled _ reads weak _ => (reads, weak)
  | .pending =>
    match jobOf s e.addr with
    | some j => (j.readsSpent, j.lastWeak)
    | none => (0, none)

end Sys2Proof.Machine
end

