-- ==== Sys2Proof/Machine/JobOps.lean ====
section
/-!
DEFINITION. The recovery queue and what its jobs do to the other blocks: places in the queue and head changes (R60,
R70), votes (R71, R105, R116), the ends of jobs (R77 to R80), withholding and its ends (R36, R37, R75, R76), admission
(R45, R62, R63, R92), rung starts (R91, R94) and rung ends (R98, R99).
-/

namespace Sys2Proof.Machine

/-! ### Votes -/

/-- Votes of a job are marked for discard (R116). -/
def markDiscard (a : Addr) (s : State) : State :=
  { s with
    eng.inFlight := s.eng.inFlight.map fun v => if v.owner = a then { v with discard := true } else v
    eng.waiting := s.eng.waiting.map fun v => if v.owner = a then { v with discard := true } else v }

/-- The sequencer hands the engine a vote: it is computed at once, or waits behind the vote in flight (R105). -/
def handVote (owner : Addr) (inp : VoteInputs) (s : State) : State :=
  match s.eng.inFlight with
  | none => { s with eng.inFlight := some (startVote s.straps owner inp false) }
  | some _ => { s with eng.waiting := some ⟨owner, inp, false⟩ }

/-- The vote in flight has completed: a waiting vote that is not marked is computed next, a marked one is dropped
(R105). -/
def nextVote (s : State) : State :=
  match s.eng.waiting with
  | none => { s with eng.inFlight := none }
  | some v =>
    { s with
      eng.inFlight := if v.discard then none else some (startVote s.straps v.owner v.inputs false)
      eng.waiting := none }

/-! ### The queue -/

/-- Change the record of a sector's job. -/
def updateJob (a : Addr) (f : Job → Job) (s : State) : State :=
  { s with seq.queue := s.seq.queue.map fun j => if j.addr = a then f j else j }

/-- The queue without a sector's job. -/
def withoutJob (a : Addr) (q : List Job) : List Job := q.filter fun j => decide (j.addr ≠ a)

/-- A job joins the tail of the group of its class (R60). -/
def joinGroup (j : Job) (q : List Job) : List Job :=
  match j.cls with
  | .background => q ++ [j]
  | .foreground =>
    q.filter (fun x => decide (x.cls = .foreground)) ++ j :: q.filter (fun x => decide (x.cls ≠ .foreground))

/-- A sector's job moved to the head of the foreground group (R60, R75). -/
def promoted (a : Addr) (q : List Job) : List Job :=
  match q.find? fun j => decide (j.addr = a) with
  | some j => { j with cls := .foreground } :: withoutJob a q
  | none => q

/-- A sector's job moved to the tail of the background group (R60, R76). -/
def demoted (a : Addr) (q : List Job) : List Job :=
  match q.find? fun j => decide (j.addr = a) with
  | some j => joinGroup { j with cls := .background } (withoutJob a q)
  | none => q

/-- A sector's job moved to the tail of the group of its class (R60, R74). -/
def sentToTail (a : Addr) (q : List Job) : List Job :=
  match q.find? fun j => decide (j.addr = a) with
  | some j => joinGroup j (withoutJob a q)
  | none => q

/-- The copies, the last vote result and the working rung of the head are emptied (R68, R90). -/
def emptyHeadWork (s : State) : State := { s with seq.copies := [], seq.lastVote := none, seq.workingRung := none }

/-- The job that was the head is no longer: its vote is marked, it becomes WAITING with no reads done, its copies are
emptied, and it gives up the drive it held (R70). -/
def leaveHead (old : Job) (s : State) : State :=
  let s := emptyHeadWork (updateJob old.addr (fun j => { j with state := .waiting, readsDone := 0 }) s)
  let s := if old.state = .voting then markDiscard old.addr s else s
  if old.state ≠ .waiting ∧ s.drv.holder = .recovery then giveUp s else s

/-- The queue changes, with a head change when another job, or none, is first afterwards (R70). -/
def reorder (f : List Job → List Job) (s : State) : State :=
  let s' := { s with seq.queue := f s.seq.queue }
  match headJob s with
  | none => s'
  | some old => if (headJob s').map Job.addr = some old.addr then s' else leaveHead old s'

/-- A job leaves the queue and the sweep is notified (R77, R79, R80). -/
def removeJob (a : Addr) (s : State) : State := noticeSweep (reorder (withoutJob a) s)

/-- A job is cancelled: removed without an outcome, an incident or a health notice; a vote of it is discarded (R80). -/
def cancelJob (a : Addr) (s : State) : State :=
  match jobOf s a with
  | some _ => removeJob a (markDiscard a s)
  | none => s

/-! ### Live operations and withholding -/

/-- A controller operation with nothing pending. -/
def newOp (kind : OpKind) (a : Addr) (phase : Phase) : Op := ⟨kind, a, phase, none, false, false, none⟩

/-- A served operation awaits the MATCH that the mark generator gives 1 ms later (R29, R30, R31, R128). -/
def beginServed (kind : OpKind) (a : Addr) (s : State) : State :=
  { s with ctl.op := some { newOp kind a .awaitingMatch with matchDue := some (s.clock + Config.ms) } }

/-- A live operation asks for the drive. In ACTIVE and CAPTIVE mode a LOST drive answers it with shown FAULT and ends
it (R32). A FAULT that the drive has raised already is shown from the operation's first phase (R25, R125; log 37). -/
def beginLive (kind : OpKind) (a : Addr) (s : State) : State :=
  if !isPassive s && decide (s.drv.condition = .lost) then { s with ctl.op := none, ctl.shownFault := true }
  else
    takeDrive { s with
      ctl.op := some (newOp kind a .awaitingDrive)
      ctl.shownFault := s.ctl.shownFault || s.drv.lines.fault }

/-- A re-seat in progress issues no further order (R122). -/
def dropReseat (s : State) : State :=
  match s.drv.travel with
  | some t => if t.purpose = .reseatLive ∨ t.purpose = .reseatWithhold then { s with drv.travel := none } else s
  | none => s

/-- The withholding record is emptied and the report replaced (R37, R184); the duration is cut to whole milliseconds, by the
model's choice (log 48). -/
def closeWithhold (k : EndKind) (s : State) : State :=
  match s.ctl.withhold with
  | none => s
  | some w =>
    { s with
      ctl.withhold := none
      ctl.report := some ⟨w.addr, k, min ((s.clock - w.begun) / Config.ms) 4095⟩ }

/-- Withholding ends RECOVERED: the new image is served after a generated MATCH (R37). Where a VOTING job's vote ends it
while the controller still holds, or is to have, the drive for the re-seat at the beginning of withholding, no rule says
what becomes of that re-seat: it is dropped, its step in flight is let end, and the controller's holding goes on with its
quiet interval, by the model's choice (R122, R131, R135; log 61). -/
def withholdServed (a : Addr) (s : State) : State :=
  beginServed .servedRead a (endUse (dropReseat (closeWithhold .recovered s)))

/-- Withholding ends with a live pass (R37). A re-seat of its beginning that still runs at a VOTING job's LOST end is
dropped and the live pass re-seats afresh once the step in flight has ended, by the model's choice (R122, R135; log 61). -/
def withholdLive (k : EndKind) (a : Addr) (s : State) : State :=
  beginLive .liveRead a (dropReseat (closeWithhold k s))

/-- The withheld job goes to the tail of the background group; still the head, an ACTIVE job becomes WAITING and gives
up the drive (R76). -/
def demoteJob (a : Addr) (s : State) : State :=
  let s := reorder (demoted a) s
  match headJob s with
  | some j => if j.addr = a ∧ j.state = .active then giveUp (standDown s) else s
  | none => s

/-- Withholding ends by the limit or by rest: the job is demoted and a live pass follows (R37, R76). -/
def endWithholdDemoting (k : EndKind) (s : State) : State :=
  match s.ctl.withhold with
  | none => s
  | some w => withholdLive k w.addr (demoteJob w.addr s)

/-! ### How jobs end -/

/-- The best image of the head job: its last vote result, else its newest copy (R68). -/
def bestImage (s : State) : Option Field :=
  match s.seq.lastVote with
  | some f => some f
  | none => s.seq.copies.getLast?

/-- A job ends RECOVERED: map, health notice, removal, notice to the sweep, and a withheld read is served (R77). -/
def endRecovered (a : Addr) (m : Method) (image : Field) (s : State) : State :=
  match jobOf s a with
  | none => s
  | some j =>
    let s := mapRecovered a m image j.readsSpent j.lastWeak s
    let s := noticeRecovered a.head m j.readsSpent s
    let s := removeJob a s
    if isWithheld s a then withholdServed a s else s

/-- A job ends LOST: map, incident, health notice, removal, notice to the sweep, and a withheld read gets its live pass
(R79). Only the head hands over a best image, since copies and vote result are the head's (R68). -/
def endLost (a : Addr) (kind : LostKind) (s : State) : State :=
  match jobOf s a with
  | none => s
  | some j =>
    let image := if (headJob s).map Job.addr = some a then bestImage s else none
    let s := mapLost a image j.readsSpent j.lastWeak s
    let s := logIncident (.jobLost kind a j.ladder j.rungIndex j.readsSpent j.lastWeak) s
    let s := noticeLost a.head s
    let s := removeJob a s
    if isWithheld s a then withholdLive .lost a s else s

/-- The kind of a LOST end other than by position failure (R79). -/
def Job.lostKind (j : Job) : LostKind := if j.lastAmbiguous then .ambiguous else .unrecovered

/-! ### Ladders, rung starts and rung ends -/

/-- A ladder of the tables (R84). -/
def ladderOf (s : State) (k : Nat) : Ladder := s.tables.ladders.getD k Ladder.empty

/-- Does a loaded zone entry match a head and cylinder? (R92) -/
def Zone.covers (z : Zone) (h c : Nat) : Bool :=
  (match z.head with | none => true | some k => decide (k = h)) && decide (z.low ≤ c ∧ c ≤ z.high)

/-- The ladder an admission records: the first matching zone's, ladder 0 when none matches or the chosen one has no
rungs (R62, R92). -/
def chooseLadder (s : State) (a : Addr) : Nat :=
  match s.tables.zones.findSome? fun e => e.bind fun z => if z.covers a.head a.cyl then some z.ladder else none with
  | some k => if (ladderOf s k).rungs = [] then 0 else k
  | none => 0

/-- The rung index at or after `i` that a rung start comes to, over the next `n` rungs: on a worn head, rungs whose
offset is other than CENTRE are passed over (R94). -/
def skipWorn (worn : Bool) (rungs : List Rung) : Nat → Nat → Nat
  | 0, i => i
  | n + 1, i =>
    match rungs[i]? with
    | none => i
    | some r => if worn && decide (r.offset ≠ .centre) then skipWorn worn rungs n (i + 1) else i

/-- A job arrives at a rung start or a resumption: worn-head skips, then the test for an exhausted ladder, which ends
the job LOST (R91, R94). A skipped rung's reads done return to 0. -/
def arriveRung (a : Addr) (s : State) : State :=
  match jobOf s a with
  | none => s
  | some j =>
    let rungs := (ladderOf s j.ladder).rungs
    let i := skipWorn (isWorn s a.head) rungs rungs.length j.rungIndex
    let s := if i = j.rungIndex then s else updateJob a (fun j => { j with rungIndex := i, readsDone := 0 }) s
    if rungs.length ≤ i then endLost a j.lostKind s else s

/-- A rung start or a resumption (R90, R91, R94): the skips, the test, and the head job's working rung read from its
ladder as the table stands at this moment. -/
def startRung (a : Addr) (s : State) : State :=
  let s := arriveRung a s
  match headJob s with
  | none => s
  | some j =>
    if j.addr = a then { s with seq.workingRung := (ladderOf s j.ladder).rungs[j.rungIndex]? } else s

/-- The positioning of a rung, from its start or resumed (R65, R95). -/
def rungTravel (j : Job) (r : Rung) : Travel :=
  { purpose := .rung, cyl := j.addr.cyl, head := j.addr.head, strobe := r.strobe, offset := r.offset,
    moves :=
      if j.readsDone = 0 then
        (if r.restoreFirst then [.restore, .backTo, .select] else [.reach, .select])
          ++ (if r.resetCopies then [.emptyCopies] else []) ++ [.margin]
      else [.reach, .select, .margin],
    stepped := false, retry := none }

/-- The ACTIVE head job goes on to its working rung: the rung's positioning is to be made (R95). -/
def goToRung (s : State) : State :=
  match headJob s, s.seq.workingRung with
  | some j, some r => if j.state = .active then { s with drv.travel := some (rungTravel j r) } else s
  | _, _ => s

/-- The effective budget: the header's, on a worn head halved, rounded down, and at least 1 (R96). -/
def effectiveBudget (worn : Bool) (budget : Nat) : Nat := if worn then max 1 (budget / 2) else budget

/-- The working rung's on-failure action (R99). END ends the job LOST; else the job arrives at its next rung start, and
goes on with the drive if it holds it or waits for it (R90: the working rung is read at that start). -/
def failRung (a : Addr) (act : OnFailure) (s : State) : State :=
  match jobOf s a with
  | none => s
  | some j =>
    match act with
    | .stop => endLost a j.lostKind s
    | _ =>
      let i := match act with
        | .skip => min (j.rungIndex + 2) 16
        | _ => j.rungIndex + 1
      let holds := decide (s.drv.holder = .recovery ∧ s.drv.passOn = .stays)
      let s := updateJob a
        (fun j => { j with rungIndex := i, readsDone := 0, state := if holds then .active else .waiting }) s
      let s := startRung a s
      if holds then goToRung s else s

/-- The rung's last read has ended: a vote when it asks for one and 2 copies are held, else its on-failure action (R71,
R98). -/
def endRung (a : Addr) (r : Rung) (s : State) : State :=
  if r.voteAfter ∧ 2 ≤ s.seq.copies.length then
    match jobOf s a with
    | none => s
    | some j =>
      let lad := ladderOf s j.ladder
      handVote a ⟨s.seq.copies, lad.m, lad.l⟩ (updateJob a (fun j => { j with state := .voting }) s)
  else failRung a r.onFailure s

/-- A charged read of the head job (R67): after the last read of the working rung, the rung ends. -/
def chargeRead (a : Addr) (s : State) : State :=
  let s := updateJob a (fun j => { j with readsSpent := j.readsSpent + 1, readsDone := j.readsDone + 1 }) s
  match jobOf s a, s.seq.workingRung with
  | some j, some r => if r.reads ≤ j.readsDone then endRung a r s else s
  | _, _ => s

/-! ### Admission -/

/-- An admission request (R45): `none` when met (with a new job, or without one for a sector that has an entry or a
write claim), else the condition that failed. -/
def refusalOf (s : State) (a : Addr) : Option BlockCause :=
  if (entryOf s a).isSome ∨ s.map.claim.map Claim.addr = some a then none
  else if freeEntries s = 0 then some .fullMap
  else if Config.queueRoom ≤ s.seq.queue.length then some .fullQueue
  else none

/-- A job as it is admitted (R61, R62). -/
def newJob (s : State) (a : Addr) (cls : JobClass) (origin : Origin) : Job :=
  ⟨a, cls, chooseLadder s a, 0, 0, 0, 0, .waiting, none, origin, false⟩

/-- A job joins the queue and arrives at its first rung start (R62, R90, R92): the worn-head skips and the test are made
at once (R91, R94), and a ladder with no rung left for it ends it LOST there. Behind the head it gets no working rung (R90;
log 20). -/
def enqueueJob (j : Job) (s : State) : State := startRung j.addr (reorder (joinGroup j) s)

/-- The entry and the job of a met request, created in one act (R45, R62). -/
def admitSector (a : Addr) (cls : JobClass) (origin : Origin) (s : State) : State :=
  if (entryOf s a).isSome ∨ s.map.claim.map Claim.addr = some a then s
  else enqueueJob (newJob s a cls origin) (addEntry ⟨a, origin, .pending⟩ s)

/-- A request of the controller port or the sweep: met, or logged NOT ADMITTED (R45, R63). -/
def requestJob (a : Addr) (cls : JobClass) (origin : Origin) (s : State) : State :=
  match refusalOf s a with
  | some _ => logIncident (.notAdmitted a) s
  | none => admitSector a cls origin s

/-! ### Position failures and fault episodes -/

/-- A job-level position failure of the head job (R74): the first sends it to the tail of its class, or of the
background group when it is withheld; the second ends it LOST. -/
def jobPositionFailure (a : Addr) (s : State) : State :=
  match jobOf s a with
  | none => s
  | some j =>
    if j.positionFailures = 0 then
      let s := updateJob a (fun j => { j with positionFailures := 1, readsDone := 0, state := .waiting }) s
      let s := giveUp (emptyHeadWork s)
      if isWithheld s a then withholdLive .positionFailure a (reorder (demoted a) s)
      else reorder (sentToTail a) s
    else endLost a .positionFailure s

/-- A fault episode begins: the capture is abandoned, a step in flight ends as failed, and one CLEAR is issued (R125). -/
def startEpisode (s : State) : State :=
  let s := abandonCapture s
  let failed := s.drv.step.bind Step.move
  issueOrder .clear
    { s with drv.step := none, drv.episode := some ⟨s.clock, failed⟩ }

/-- The head job takes up its rung (R65): a resumed rung with no reads left ends at once, else the rung's positioning
follows. -/
def takeUpRung (a : Addr) (s : State) : State :=
  match jobOf s a, s.seq.workingRung with
  | some j, some r => if 0 < j.readsDone ∧ r.reads ≤ j.readsDone then endRung a r s else goToRung s
  | _, _ => s

/-- The head job is granted the drive: it becomes ACTIVE, its working rung is read, it takes up that rung, and a raised
FAULT begins an episode at once (R65, R90, R91, R125). A resumed rung whose reads are complete ends before that, by the
model's choice (log 50). -/
def grantHead (s : State) : State :=
  match headJob s with
  | none => s
  | some j =>
    let s := updateJob j.addr (fun j => { j with state := .active }) (setHolder .recovery s)
    let s := takeUpRung j.addr (startRung j.addr s)
    if s.drv.lines.fault ∧ s.drv.holder = .recovery ∧ s.drv.passOn = .stays ∧ s.drv.episode = none then startEpisode s
    else s

/-- The handover of withholding (R36, R135): the holder passes from CONTROLLER to RECOVERY, a WAITING job is granted the
drive, a VOTING job holds it through its vote. -/
def handOver (s : State) : State :=
  let s := { s with
    drv.travel := none
    drv.quietDue := none
    ctl.op := s.ctl.op.map fun o => { o with phase := .awaitingMatch } }
  match headJob s with
  | some j =>
    if j.state = .voting then
      let s := setHolder .recovery s
      if s.drv.lines.fault then startEpisode s else s
    else grantHead s
  | none => s

end Sys2Proof.Machine
end

