-- ==== Sys2Proof/Machine/SweepOps.lean ====
section
/-!
DEFINITION. The sweep's cursor and track reads (chapter 8): the advance and the worn-head skips (R154), the grant
(R149), the targets of the two passes (R150, R151), the end of a track (R153) and a position failure (R155).
-/

namespace Sys2Proof.Machine

/-- The head count of the geometry in force, by which linear tracks are cut (R4). -/
def headCount (s : State) : Nat :=
  match s.svc.geometry with
  | some g => g.heads
  | none => 1

/-- The sector address on the sweep's present track (R4). -/
def sweepAddr (s : State) (sec : Nat) : Addr := ⟨s.sweep.next / headCount s, s.sweep.next % headCount s, sec⟩

/-- One advance of the cursor, with its wrap and its completion test (R154). -/
def advanceCursor (w : Sweep) : Sweep :=
  let next := if w.next + 1 = w.limit then w.base else w.next + 1
  { w with next := next, state := if next = w.stop then .done else w.state }

/-- The worn-head skips from the cursor, over at most `n` tracks: they end at a track on a head that is not worn, or at
stop (R154). -/
def skipTracks (wornTrack : Nat → Bool) : Nat → Sweep → Sweep
  | 0, w => w
  | n + 1, w =>
    if w.state ≠ .done ∧ wornTrack w.next then
      skipTracks wornTrack n (advanceCursor { w with tracksSkipped := countUp w.tracksSkipped })
    else w

/-- Is a linear track on a worn head? (R149) -/
def wornTrack (s : State) (t : Nat) : Bool := isWorn s (t % headCount s)

/-- The skips of this state's sweep (R154). -/
def sweepSkips (s : State) (w : Sweep) : Sweep := skipTracks (wornTrack s) (w.limit - w.base) w

/-- The positioning of a track read: NOMINAL and CENTRE on the track (R149). -/
def sweepTravel (s : State) : Travel :=
  { purpose := .sweep, cyl := s.sweep.next / headCount s, head := s.sweep.next % headCount s, strobe := .nominal,
    offset := .centre, moves := [.reach, .select, .margin], stepped := false, retry := none }

/-- The arbiter grants the drive to the sweep (R149): the worn test and its skips, then the track begins; a raised FAULT
begins an episode at once (R125), but not when the skips end the sweep, by the model's choice (log 47). -/
def grantSweep (s : State) : State :=
  let s := setHolder .sweep s
  let s := { s with sweep := sweepSkips s { s.sweep with state := .sweeping } }
  if s.sweep.state = .done then giveUp s
  else
    let s := { s with sweep := resetTrack s.sweep }
    let s := { s with drv.travel := some (sweepTravel s) }
    if s.drv.lines.fault then startEpisode s else s

/-- The present track is left: the cursor advances, worn tracks are skipped, and the sweep is DONE or WAITING (R153 to
R155). -/
def leaveTrack (s : State) : State :=
  let w := sweepSkips s (advanceCursor (resetTrack s.sweep))
  giveUp { s with sweep := if w.state = .done then w else { w with state := .waiting } }

/-- A track's reading ends (R153). -/
def endTrack (s : State) : State :=
  if s.sweep.cause.isSome then
    giveUp { s with sweep.state := .blocked, sweep.pass := .reaching, sweep.marked := [] }
  else if s.sweep.refusalMet then
    giveUp { s with sweep.state := .waiting, sweep.pass := .reaching, sweep.marked := [] }
  else leaveTrack { s with sweep.tracksRead := countUp s.sweep.tracksRead }

/-- The sweep's failed retry: the track is skipped (R140, R155). -/
def sweepPositionFailure (s : State) : State :=
  leaveTrack { s with sweep.tracksSkipped := countUp s.sweep.tracksSkipped, drv.travel := none }

/-- Has a sector of the present track a map entry? (R150) -/
def sectorMapped (s : State) (sec : Nat) : Bool := (entryOf s (sweepAddr s sec)).isSome

/-- The next target among the sectors left to the second pass (R151). -/
def secondTarget (s : State) (left : List Nat) : Option (Nat × SweepPass) :=
  match left.dropWhile (sectorMapped s) with
  | [] => none
  | k :: rest => some (k, .second rest)

/-- The next sector the track read targets, with the pass it leaves: the lowest unmapped sector of the first pass from
where it stands, then the sectors marked SHORT (R150, R151). -/
def nextTarget (s : State) : Option (Nat × SweepPass) :=
  let sectors := match s.svc.geometry with
    | some g => g.sectors
    | none => 0
  match s.sweep.pass with
  | .first k =>
    match (List.range sectors).find? fun i => decide (k ≤ i) && !sectorMapped s i with
    | some i => some (i, .first (i + 1))
    | none => secondTarget s s.sweep.marked
  | .second left => secondTarget s left
  | .reaching => none
  | .awaitingIndex => none

/-- The sweep issues its next target, or its track ends (R150, R153). -/
def runSweep (s : State) : State :=
  match nextTarget s with
  | none => endTrack s
  | some (k, pass) =>
    issueOrder (.targetRead k)
      { s with sweep.pass := pass, drv.capture := some ⟨.sweep, sweepAddr s k, false, 0⟩ }

/-- After a sweep capture, the track ends with its last target; else the next target follows (R150, R153). -/
def afterSweepCapture (s : State) : State := if (nextTarget s).isNone then endTrack s else s

/-- An admission request of the sweep: a refusal is logged and becomes the block cause (R151, R152). -/
def sweepRequest (a : Addr) (s : State) : State :=
  if s.sweep.cause.isSome then s
  else
    match refusalOf s a with
    | some c => { logIncident (.notAdmitted a) s with sweep.cause := some c, sweep.refusalMet := true }
    | none => admitSector a .background .sweep s

end Sys2Proof.Machine
end

