-- ==== Sys2Proof/Machine/Settle.lean ====
section
/-!
DEFINITION. What the blocks do on their own inside a command until nothing is left to do at once (log 31): the drive
passes on at a step's end (R132, R134), a passed withhold limit and a due rest take effect between part operations
(R76, R143), re-seats, rungs and track reads go on (R95, R122, R149), and the arbiter chooses (R130, R133).
-/

namespace Sys2Proof.Machine

/-! ### Positioning -/

/-- Issue a positioning step of a travel; before a party's first step a raised POSITION ERROR is cleared (R121): the first
of each positioning, by the model's choice (log 46). -/
def travelStep (o : Order) (m : Move) (t : Travel) (s : State) : State :=
  let s := if !t.stepped && s.drv.lines.positionError then issueOrder .clear s else s
  issueStep o (some m) { s with drv.travel := some { t with stepped := true } }

/-- With the drive in agreement with the view, the live target is issued (R32); a live read's capture begins (R12). -/
def issueTarget (s : State) : State :=
  match s.ctl.op with
  | none => { s with drv.travel := none }
  | some o =>
    let s := { s with drv.travel := none, ctl.op := some { o with phase := .awaitingMatch } }
    match o.kind with
    | .liveRead => issueOrder (.targetRead o.addr.sec) { s with drv.capture := some ⟨.live, o.addr, false, 0⟩ }
    | .liveWrite => issueOrder (.targetWrite o.addr.sec) s
    | _ => s

/-- A positioning is complete: what it was made for goes on (R32, R36, R97, R150). -/
def arrive (t : Travel) (s : State) : State :=
  match t.purpose with
  | .reseatLive => issueTarget s
  | .reseatWithhold => handOver s
  | .rung => { s with drv.travel := none }
  | .sweep => { s with drv.travel := none, sweep.pass := .awaitingIndex }

/-- The next move of a travel (R95, R122, R138). -/
def makeMove (t : Travel) (s : State) : State :=
  match t.moves with
  | [] =>
    match t.retry with
    | some rest => { s with drv.travel := some { t with moves := rest, retry := none } }
    | none => arrive t s
  | m :: ms =>
    let t := { t with moves := ms }
    let s := { s with drv.travel := some t }
    match m with
    | .clearIfError => if s.drv.lines.positionError then issueOrder .clear s else s
    | .restore => travelStep .ret m t s
    | .backTo => travelStep (.position t.cyl) m t s
    | .reach => if s.drv.record.cyl = some t.cyl then s else travelStep (.position t.cyl) m t s
    | .select => if s.drv.record.head = some t.head then s else issueOrder (.head t.head) s
    | .emptyCopies => { s with seq.copies := [] }
    | .margin =>
      if s.drv.record.strobe = some t.strobe ∧ s.drv.record.offset = some t.offset then s
      else if isStep (.margin t.strobe t.offset) s then travelStep (.margin t.strobe t.offset) m t s
      else issueOrder (.margin t.strobe t.offset) s

/-- The moves of the one retry of a failed step (R138). -/
def retryMoves (failed : Move) : List Move :=
  [.clearIfError, .restore, .backTo, .select] ++ if failed = .margin then [.margin] else []

/-- What goes on after a retry: the moves after the failed one; a restore that failed at its RETURN counts as done
(R138). -/
def afterRetry (failed : Move) (rest : List Move) : List Move :=
  if failed = .restore then rest.dropWhile fun m => decide (m = .backTo) else rest

/-- A step of a travel has failed (R123, R138 to R140): a re-seat's operation ends with POSITION ERROR shown; a party's
step gets its retry, unless rest is due (log 10); a failed retry is reported. -/
def travelFails (failed : Move) (t : Travel) (s : State) : State :=
  match t.purpose with
  | .reseatLive | .reseatWithhold =>
    let s := closeWithhold .reseatFailed s
    endUse { s with
      drv.travel := none
      ctl.op := none
      ctl.shownPositionError := true
      ctl.shownOnCylinder := false
      ctl.seekFailed := true }
  | .rung | .sweep =>
    match t.retry with
    | none =>
      if restDue s then s
      else
        let t := { t with moves := retryMoves failed, retry := some (afterRetry failed t.moves) }
        { s with drv.travel := some t }
    | some _ =>
      if t.purpose = .sweep then sweepPositionFailure s
      else
        match headJob s with
        | some j => jobPositionFailure j.addr { s with drv.travel := none }
        | none => s

/-- The re-seat to the controller view (R122). -/
def reseatTravel (s : State) : Travel :=
  { purpose := if s.ctl.withhold.isSome then .reseatWithhold else .reseatLive, cyl := s.ctl.cyl, head := s.ctl.head,
    strobe := s.ctl.strobe, offset := s.ctl.offset, moves := [.clearIfError, .reach, .select, .margin],
    stepped := false, retry := none }

/-! ### The head job on the drive -/

/-- The next read of a rung: the budget check, then TARGET READ and its capture (R96, R97). -/
def readSector (j : Job) (s : State) : State :=
  if effectiveBudget (isWorn s j.addr.head) (ladderOf s j.ladder).budget ≤ j.readsSpent then
    endLost j.addr j.lostKind s
  else issueOrder (.targetRead j.addr.sec) { s with drv.capture := some ⟨.recovery, j.addr, false, 0⟩ }

/-- The ACTIVE head job goes on in its working rung: the rung's end, or the next read (R97, R98). -/
def runJob (s : State) : State :=
  match headJob s, s.seq.workingRung with
  | some j, some r => if r.reads ≤ j.readsDone then endRung j.addr r s else readSector j s
  | _, _ => s

/-! ### Rest, relays and the arbiter -/

/-- Rest begins (R143): a device holder gives up the drive, and withholding ends as at the limit's passing (R73, R37). -/
def beginRest (s : State) : State :=
  let s := markResting s
  let s := if s.drv.holder.isDevice then giveUp (interruptSweep (standDown s)) else s
  endWithholdDemoting .rest s

/-- The first held order is relayed (R20); an order that is no step ends its controller use at once (R131). -/
def relayOrder (s : State) : State :=
  match s.drv.heldOrders with
  | [] => s
  | o :: rest =>
    let s := { s with drv.heldOrders := rest }
    if isStep o s then issueStep o none { s with drv.quietDue := none } else endUse (issueOrder o s)

/-- The drive passes on when the step in flight has ended (R132, R134). -/
def passDrive (s : State) : State :=
  match s.drv.passOn with
  | .stays => s
  | .toNobody => setHolder .nobody { s with drv.passOn := .stays }
  | .toController => setHolder .controller { s with drv.passOn := .stays }

/-- The conditions of the arbiter's line 1 (R65, R130). -/
def headMayRun (s : State) : Bool :=
  deviceMayWork s &&
    match headJob s with
    | some j => decide (j.state = .waiting)
    | none => false

/-- The conditions of the arbiter's line 2 (R130). -/
def sweepMayRun (s : State) : Bool := deviceMayWork s && decide (s.sweep.state = .waiting)

/-- A foreground head takes the drive from the sweep at once (R133). -/
def sweepYields (s : State) : Bool :=
  decide (s.drv.holder = .sweep ∧ s.drv.passOn = .stays) && headMayRun s &&
    match headJob s with
    | some j => decide (j.cls = .foreground)
    | none => false

/-- A withhold limit that passed during a capture takes effect once no capture is in flight (R37, R76). -/
def limitEnds (s : State) : Bool :=
  s.drv.capture.isNone &&
    match s.ctl.withhold with
    | some w => w.limitPassed
    | none => false

/-- A rest that began as the withholding's own taking of the drive ended RECOVERY's or SWEEP's holding ends the
withholding (R143, R37). -/
def restMeetsWithhold (s : State) : Bool := s.drv.resting && s.ctl.withhold.isSome

/-- What the device does next of its own accord inside a command. -/
inductive Act where
  | pass
  | restMeetsWithhold
  | limitEnds
  | restBegins
  | sweepYields
  | relay
  | reseat
  | move
  | job
  | sweepTarget
  | grantRecovery
  | grantSweep
deriving DecidableEq, Repr

/-- What the holder does next, with nothing in flight (R20, R95, R122, R130, R150). An order held since PASSIVE mode is
relayed in whatever mode the step before it ends, by the model's choice (log 49). -/
def holderAct (s : State) : Option Act :=
  match s.drv.holder with
  | .nobody => if headMayRun s then some .grantRecovery else if sweepMayRun s then some .grantSweep else none
  | .controller =>
    if s.drv.heldOrders ≠ [] then some .relay
    else if s.drv.travel.isSome then some .move
    else if awaitsDrive s then some .reseat
    else none
  | .recovery =>
    if s.drv.travel.isSome then some .move
    else
      match headJob s with
      | some j => if j.state = .active ∧ s.seq.workingRung.isSome = true then some .job else none
      | none => none
  | .sweep =>
    if s.drv.travel.isSome then some .move
    else if s.sweep.state = .sweeping then
      match s.sweep.pass with
      | .first _ => some .sweepTarget
      | .second _ => some .sweepTarget
      | .reaching => none
      | .awaitingIndex => none
    else none

/-- The next act, in the order the rules give them: a due rest and a passed limit take effect at the points between
part operations, before any new order (R76, R143). With a capture in flight nothing is granted, also where it is a live one
that outlived a LOST judgement, by the model's choice (log 54). -/
def nextAct (s : State) : Option Act :=
  if s.drv.passOn ≠ .stays ∧ s.drv.step.isNone then some .pass
  else if restMeetsWithhold s then some .restMeetsWithhold
  else if limitEnds s then some .limitEnds
  else if restDue s && restPoint s then some .restBegins
  else if sweepYields s then some .sweepYields
  else if s.drv.step.isSome || s.drv.capture.isSome || s.drv.episode.isSome then none
  else holderAct s

/-- Carry out an act. -/
def doAct (x : Act) (s : State) : State :=
  match x with
  | .pass => passDrive s
  | .restMeetsWithhold => endWithholdDemoting .rest s
  | .limitEnds => endWithholdDemoting .limit s
  | .restBegins => beginRest s
  | .sweepYields => giveUp (interruptSweep s)
  | .relay => relayOrder s
  | .reseat => { s with drv.travel := some (reseatTravel s), drv.quietDue := none }
  | .move =>
    match s.drv.travel with
    | some t => makeMove t s
    | none => s
  | .job => runJob s
  | .sweepTarget => runSweep s
  | .grantRecovery => grantHead s
  | .grantSweep => grantSweep s

/-- At most `n` acts, until none is due. -/
def settleN : Nat → State → State
  | 0, s => s
  | n + 1, s =>
    match nextAct s with
    | none => s
    | some x => settleN n (doAct x s)

/-- The acts a command can set off: each job that ends on its way takes at most 16 of them, and each held order one
(R20, R121; log 31). -/
def settleActs (s : State) : Nat := 16 * (s.seq.queue.length + 4) + s.drv.heldOrders.length

/-- Carry out what is due at once (log 31). -/
def settle (s : State) : State := settleN (settleActs s) s

end Sys2Proof.Machine
end

