-- ==== Sys2Proof/Machine/DriveEvents.lean ====
section
/-!
DEFINITION. The commands of the drive port and the capture unit: the drive's marks, levels and positioning steps (R17,
R121, R124 to R126), the captures' ends (R12, R13, R33, R67, R151) and the LOST judgement with its effects on every
block (R37, R72, R126, R156).
-/

namespace Sys2Proof.Machine

/-! ### The LOST judgement -/

/-- The one CLEAR while LOST: issued in ACTIVE and CAPTIVE mode, and not during rest, when READY and FAULT are first seen
together since the drive became LOST or READY last rose (R124, R144; log 18), and whoever holds the drive (R129; log 53). -/
def lostClear (s : State) : State :=
  if s.drv.condition = .lost ∧ s.drv.lines.ready = true ∧ s.drv.lines.fault = true ∧ s.drv.clearArmed = true then
    let s := { s with drv.clearArmed := false }
    if isPassive s || s.drv.resting then s else issueOrder .clear s
  else s

/-- The head job at a LOST judgement (R72, R68): copies and vote result are emptied in every state, of a VOTING head the
vote result by the model's choice (log 51); an ACTIVE or WAITING job waits with no reads done. -/
def headLosesDrive (s : State) : State :=
  let s := { s with seq.copies := [], seq.lastVote := none }
  match headJob s with
  | none => s
  | some j =>
    if j.state = .voting then s
    else
      updateJob j.addr (fun j => { j with state := .waiting, readsDone := 0 }) { s with seq.workingRung := none }

/-- The instant of the first generated INDEX: the schedule counts whole periods, at least one, from the last INDEX
relayed or from power-up (R128, log 17). -/
def firstGenerated (now base period : Nat) : Nat := base + max 1 ((now - base + period - 1) / period) * period

/-- The mark generator begins to supply INDEX (R128). -/
def startGenerator (s : State) : State :=
  let period := s.drv.period.getD Config.defaultPeriod
  { s with
    drv.genPeriod := period
    drv.genNext := some (firstGenerated s.clock (s.drv.lastRelayed.getD 0) period) }

/-- What the controller's operation sees of a LOST judgement (R25, R32, R37): shown FAULT for a live operation or a
withholding; in ACTIVE mode an operation before its gate ends, a live read's capture SHORT with it. -/
def operationLosesDrive (s : State) : State :=
  match s.ctl.op with
  | none => s
  | some o =>
    match o.kind with
    | .withheld => { closeWithhold .driveLost s with ctl.op := none, ctl.shownFault := true }
    | .liveRead | .liveWrite =>
      let s := { s with ctl.shownFault := true }
      if isPassive s || decide (o.phase = .transferring) then s
      else { s with ctl.op := none, drv.capture := none }
    | .servedRead | .servedWrite | .serviceRead | .serviceWrite => s

/-- In PASSIVE mode what the controller still has under way goes on with holder CONTROLLER: held orders are relayed and
a live operation's re-seat is made again; in the other modes held orders are dropped (R20, R127; log 16). -/
def passiveGoesOn (s : State) : State :=
  if isPassive s then if s.drv.heldOrders ≠ [] || awaitsDrive s then takeDrive s else s
  else { s with drv.heldOrders := [] }

/-- The drive is judged LOST (R126). -/
def judgeLost (s : State) : State :=
  let s := headLosesDrive (dropWork (interruptSweep s))
  let s := setHolder .nobody { s with drv.step := none, drv.passOn := .stays, drv.quietDue := none }
  let s := { s with
    drv.record := ⟨none, none, none, none⟩
    drv.condition := .lost
    drv.indexCount := 0
    drv.clearArmed := true }
  let s := startGenerator (operationLosesDrive s)
  passiveGoesOn (lostClear (logIncident .driveLost s))

/-! ### Positioning steps -/

/-- Is a positioning order held behind the step that ends? (R20) -/
def heldStep (s : State) : Bool := s.drv.heldOrders.any fun o => isStep o s

/-- A relayed step has ended: its result is shown while the mode is PASSIVE, the view is off V and no positioning order
is held behind it (R20; log 15), and the controller use ends (R131). After a cleared POSITION ERROR the line stays false
(R23, log 13). -/
def relayedEnds (ok : Bool) (s : State) : State :=
  let s :=
    if isPassive s && !viewOnService s && !heldStep s then
      if ok then { s with ctl.shownOnCylinder := !s.ctl.errorCleared }
      else { s with ctl.shownPositionError := true, ctl.shownOnCylinder := false, ctl.seekFailed := true }
    else s
  endUse s

/-- The step in flight completes (R121). -/
def stepCompletes (s : State) : State :=
  match s.drv.step with
  | none => s
  | some st =>
    let s := completeStep st s
    if st.move.isNone then relayedEnds true s else s

/-- The step in flight fails (R121): a relayed order's is shown, a party's is retried or reported while the party still
holds the drive (R132, R134, R138). A re-seat's step that fails after its operation has ended shows nothing, by the model's
choice (R122, R123; log 52). -/
def stepFails (s : State) : State :=
  match s.drv.step with
  | none => s
  | some st =>
    let s := { s with drv.step := none }
    match st.move with
    | none => relayedEnds false s
    | some m =>
      if s.drv.passOn = .stays then
        match s.drv.travel with
        | some t => travelFails m t s
        | none => s
      else s

/-- POSITIONING_STEP_COMPLETES: the drive's ON CYLINDER rises (R121). Shown ON CYLINDER rises with it only at a relayed
step's end, by the model's choice (R18, R20; log 41). -/
def execPositioningStepCompletes (dt : Nat) (s : State) : Host.Outcome State Fault Refusal :=
  let s := begin dt s
  .next (settle (stepCompletes { s with drv.lines.onCylinder := true }))

/-- POSITIONING_STEP_FAILS: the drive raises POSITION ERROR (R121). -/
def execPositioningStepFails (dt : Nat) (s : State) : Host.Outcome State Fault Refusal :=
  let s := begin dt s
  .next (settle (stepFails { s with drv.lines.positionError := true }))

/-- POSITION_TIMEOUT: ON CYLINDER has not risen within the timeout of the step in flight (R121). -/
def execPositionTimeout (s : State) : Host.Outcome State Fault Refusal :=
  match s.drv.step with
  | none => .next (beginNow s)
  | some st => .next (settle (stepFails (beginAt (st.issuedAt + st.timeout) s)))

/-- MARGIN_UNKNOWN_SETTLE: a MARGIN issued with the recorded offset UNKNOWN completes 10 ms after the order if ON
CYLINDER has stayed high (R121). -/
def execMarginUnknownSettle (s : State) : Host.Outcome State Fault Refusal :=
  match s.drv.step with
  | none => .next (beginNow s)
  | some st =>
    if st.unknownOffset ∧ s.drv.lines.onCylinder = true then
      .next (settle (stepCompletes (beginAt (st.issuedAt + Config.unknownSettle) s)))
    else .next (beginNow s)

/-! ### The ends of captures -/

/-- The entry of a sector found clean by a live read (R33, R48): PENDING becomes RECOVERED and its job ends (R78), LOST
becomes RECOVERED in its own slot with its counts kept, any other entry is left. -/
def promoteLive (a : Addr) (f : Field) (s : State) : State :=
  match entryOf s a with
  | none => s
  | some e =>
    match e.body with
    | .pending => endRecovered a .clean f (markDiscard a s)
    | .settled .lost reads weak k => settleInOwnSlot a (.recovered .clean) f reads weak k s
    | .settled (.recovered _) _ _ _ => s
    | .settled .overlay _ _ _ => s

/-- A live read's capture ended full (R33): health first, then the map, in ACTIVE mode alone. -/
def liveFull (a : Addr) (f : Field) (s : State) : State :=
  if passes s.straps.bits f then
    let s := creditCleanLook a.head s
    if isPassive s then s else promoteLive a f s
  else
    let s := debitLiveRead a.head s
    if isPassive s then s else requestJob a .foreground .controller s

/-- A copy joins the capture set as the newest; the oldest leaves if 7 were held (R67). -/
def addCopy (f : Field) (copies : List Field) : List Field :=
  (copies ++ [f]).drop ((copies ++ [f]).length - Config.copyRoom)

/-- A recovery read's capture ended full (R67). -/
def recoveryFull (a : Addr) (f : Field) (s : State) : State :=
  if passes s.straps.bits f then
    endRecovered a .clean f
      (updateJob a (fun j => { j with readsSpent := j.readsSpent + 1, readsDone := j.readsDone + 1 }) s)
  else chargeRead a { s with seq.copies := addCopy f s.seq.copies }

/-- A sweep capture ended full (R151). -/
def sweepFull (a : Addr) (f : Field) (s : State) : State :=
  afterSweepCapture
    (if passes s.straps.bits f then creditCleanLook a.head s
     else sweepRequest a { s with sweep.failuresFound := countUp s.sweep.failuresFound })

/-- A sweep capture ended SHORT: on the first pass its sector is marked for the second (R151). -/
def sweepShort (a : Addr) (s : State) : State :=
  afterSweepCapture
    (match s.sweep.pass with
     | .first _ => { s with sweep.marked := s.sweep.marked ++ [a.sec] }
     | .second _ => s
     | .reaching => s
     | .awaitingIndex => s)

/-- A capture has ended full with a field (R12, R13). A live read is relayed and gives the served rate (R33); a device
party's READ GATE is lowered. -/
def captureEndsFull (c : Capture) (f : Field) (rate : Nat) (s : State) : State :=
  let s := { s with drv.capture := none }
  match c.party with
  | .live => liveFull c.addr f (emit (.relay f) { s with ctl.servedRate := some rate })
  | .recovery => recoveryFull c.addr f (lowerReadGate s)
  | .sweep => sweepFull c.addr f (lowerReadGate s)

/-- A capture has ended SHORT (R12, R13). -/
def captureEndsShort (c : Capture) (s : State) : State :=
  let s := { s with drv.capture := none }
  match c.party with
  | .live => s
  | .recovery => chargeRead c.addr (lowerReadGate s)
  | .sweep => sweepShort c.addr (lowerReadGate s)

/-- Is the capture taking in data: its MATCH has come and READ GATE is raised on the drive? (R12) -/
def takingData (c : Capture) (s : State) : Bool := c.matched && s.drv.readGate

/-- CAPTURE_FULL: the last bit of the check word is taken in (R12). -/
def execCaptureFull (dt : Nat) (field : List Nat) (bitRate : Nat) (s : State) : Host.Outcome State Fault Refusal :=
  let s := begin dt s
  match s.drv.capture with
  | none => .next s
  | some c =>
    if takingData c s then .next (settle (captureEndsFull c (takeField s.straps field) bitRate s)) else .next s

/-- READ_CLOCK_TIMEOUT: no read clock edge for 16 bit cells (R12). -/
def execReadClockTimeout (dt : Nat) (s : State) : Host.Outcome State Fault Refusal :=
  let s := begin dt s
  match s.drv.capture with
  | none => .next s
  | some c => if takingData c s then .next (settle (captureEndsShort c s)) else .next s

/-! ### Marks and levels -/

/-- The drive's MATCH is relayed to a live operation awaiting it (R17). -/
def relayMatch (s : State) : State :=
  match s.ctl.op with
  | none => s
  | some o =>
    if o.phase = .awaitingMatch ∧ (o.kind = .liveRead ∨ o.kind = .liveWrite) then
      emit .matchPulse { s with ctl.op := some { o with phase := .awaitingGate } }
    else s

/-- DRIVE_MATCH (R12, R17): a device party's capture raises READ GATE, a live operation has MATCH relayed. -/
def execDriveMatch (dt : Nat) (s : State) : Host.Outcome State Fault Refusal :=
  let s := begin dt s
  match s.drv.capture with
  | none => .next (relayMatch s)
  | some c =>
    if c.matched then .next s
    else
      let s := { s with drv.capture := some { c with matched := true } }
      match c.party with
      | .live => .next (relayMatch s)
      | .recovery => .next (emit (.readGate true) { s with drv.readGate := true })
      | .sweep => .next (emit (.readGate true) { s with drv.readGate := true })

/-- What an INDEX gives the period and the time of the last INDEX (R124). -/
def measureIndex (s : State) : State :=
  { s with
    drv.period :=
      if s.drv.lines.ready && s.drv.indexChain then s.drv.lastIndex.map (fun t => s.clock - t) else s.drv.period
    drv.lastIndex := some s.clock
    drv.indexChain := s.drv.lines.ready }

/-- The drive's INDEX is relayed (R26). -/
def relayIndex (s : State) : State := emit .index { s with drv.lastRelayed := some s.clock }

/-- An INDEX is relayed while TURNING; while LOST the second one seen with READY true and FAULT low makes the drive
TURNING and is the first relayed (R26, R124). -/
def judgeIndex (s : State) : State :=
  match s.drv.condition with
  | .turning => relayIndex s
  | .lost =>
    if s.drv.lines.ready = true ∧ s.drv.lines.fault = false then
      if s.drv.indexCount = 0 then { s with drv.indexCount := 1 }
      else relayIndex { s with drv.condition := .turning, drv.indexCount := 0, drv.genNext := none }
    else s

/-- A capture still without MATCH at the second INDEX after its target ends SHORT (R12). -/
def indexAtCapture (s : State) : State :=
  match s.drv.capture with
  | none => s
  | some c =>
    if c.matched then s
    else if c.indexes = 0 then { s with drv.capture := some { c with indexes := 1 } }
    else captureEndsShort c s

/-- The sweep's first pass begins at the INDEX it waits for (R150). -/
def indexAtSweep (s : State) : State :=
  if s.drv.holder = .sweep ∧ s.sweep.state = .sweeping ∧ s.sweep.pass = .awaitingIndex ∧ s.drv.episode = none then
    { s with sweep.pass := .first 0 }
  else s

/-- DRIVE_INDEX (R12, R26, R124, R150). -/
def execDriveIndex (dt : Nat) (s : State) : Host.Outcome State Fault Refusal :=
  .next (settle (indexAtSweep (indexAtCapture (judgeIndex (measureIndex (begin dt s))))))

/-- DRIVE_READY_FALLS (R124, R126). -/
def execDriveReadyFalls (dt : Nat) (s : State) : Host.Outcome State Fault Refusal :=
  let s := begin dt s
  let s := { s with drv.lines.ready := false, drv.indexChain := false, drv.indexCount := 0 }
  match s.drv.condition with
  | .turning => .next (settle (judgeLost s))
  | .lost => .next s

/-- DRIVE_READY_RISES (R124). -/
def execDriveReadyRises (dt : Nat) (s : State) : Host.Outcome State Fault Refusal :=
  let s := begin dt s
  .next (lostClear { s with drv.lines.ready := true, drv.clearArmed := true })

/-- Does a FAULT of the drive reach the controller: a live operation is in flight, or the mode is PASSIVE and the view is
not on V? (R25) Asked at the rise alone, by the model's choice (log 42). -/
def faultShows (s : State) : Bool := liveOp s || (isPassive s && !viewOnService s)

/-- A raised FAULT under a device holder begins an episode (R125); a party already giving up the drive begins none
(log 19). -/
def faultAtHolder (s : State) : State :=
  if s.drv.holder.isDevice = true ∧ s.drv.passOn = .stays ∧ s.drv.episode = none then startEpisode s else s

/-- DRIVE_FAULT_RISES (R25, R124, R125); a rest that is due begins at the capture an episode abandons (R143). -/
def execDriveFaultRises (dt : Nat) (s : State) : Host.Outcome State Fault Refusal :=
  let s := begin dt s
  let s := { s with
    drv.lines.fault := true
    drv.indexCount := 0
    ctl.shownFault := s.ctl.shownFault || faultShows s }
  .next (settle (lostClear (faultAtHolder s)))

/-- The party's work goes on after an episode (R125): a step the episode ended as failed is taken to its retry, a sweep
restarts its track, a job goes on with its read. -/
def resumeAfterFault (e : Episode) (s : State) : State :=
  let s := { s with drv.episode := none }
  let sweeping := decide (s.drv.holder = .sweep ∧ s.sweep.state = .sweeping)
  let s := if sweeping then { s with sweep := resetTrack s.sweep } else s
  match e.failedMove, s.drv.travel with
  | some m, some t => travelFails m t s
  | _, _ => if sweeping then { s with drv.travel := some (sweepTravel s) } else s

/-- DRIVE_FAULT_FALLS (R125). -/
def execDriveFaultFalls (dt : Nat) (s : State) : Host.Outcome State Fault Refusal :=
  let s := begin dt s
  let s := { s with drv.lines.fault := false }
  match s.drv.episode with
  | none => .next s
  | some e => .next (settle (resumeAfterFault e s))

/-- FAULT_EPISODE_TIMEOUT: FAULT is still raised 50 ms after the episode's CLEAR (R125, R126). -/
def execFaultEpisodeTimeout (s : State) : Host.Outcome State Fault Refusal :=
  match s.drv.episode with
  | none => .next (beginNow s)
  | some e =>
    if s.drv.lines.fault then .next (settle (judgeLost (beginAt (e.clearedAt + Config.episodeLimit) s)))
    else .next (beginNow s)

/-- INDEX_WATCHDOG: no INDEX within three periods of the last (R126). -/
def execIndexWatchdog (s : State) : Host.Outcome State Fault Refusal :=
  match s.drv.condition, s.drv.lastIndex, s.drv.period with
  | .turning, some t, some p => .next (settle (judgeLost (beginAt (t + 3 * p) s)))
  | _, _, _ => .next (beginNow s)

/-- DRIVE_PROTECT_CHANGES: shown PROTECT follows in PASSIVE mode (R24, `shownProtect`). -/
def execDriveProtectChanges (dt : Nat) (level : Bool) (s : State) : Host.Outcome State Fault Refusal :=
  let s := begin dt s
  .next { s with drv.lines.protect := level }

end Sys2Proof.Machine
end

