-- ==== Sys2Proof/Machine/Orders.lean ====
section
/-!
DEFINITION. The controller's orders: what an order ends (R15, R37), what it does to the view and the recent orders (R18,
R35), the shown lines of the positioning orders (R19 to R21), relaying (R20, R23) and the target decision (R27, R28).
-/

namespace Sys2Proof.Machine

/-! ### What taking an order, or a gate's fall, ends -/

/-- The controller's READ GATE on the drive falls: a live capture in flight ends SHORT (R12), and the gate is lowered
unless it is up for a device party's capture by now. -/
def lowerLiveReadGate (s : State) : State :=
  match s.drv.capture with
  | some c =>
    if c.party = .live then lowerReadGate { s with drv.capture := none }
    else if c.matched then s
    else lowerReadGate s
  | none => lowerReadGate s

/-- Sending stops when the gate of a served or service read falls before the last bit (R29). -/
def stopSending (o : Op) (s : State) : State :=
  if o.phase = .transferring ∧ o.fieldEnded = false then emit .serveEnds s else s

/-- The current controller operation ends, as at its gate's fall or at the next order (R15, R16, R41, R131). A
withholding is dealt with by `endWithholdByOrder`. -/
def endOperation (s : State) : State :=
  match s.ctl.op with
  | none => s
  | some o =>
    let s := { s with ctl.op := none }
    match o.kind with
    | .servedRead => stopSending o s
    | .serviceRead => stopSending o s
    | .servedWrite => releaseClaim s
    | .serviceWrite => s
    | .liveRead => endUse (dropReseat (lowerLiveReadGate s))
    | .liveWrite => endUse (dropReseat (lowerWriteGate s))
    | .withheld => s

/-- An order abandons a withholding (R37, R76, R122): report ORDER, no further re-seat order, the job demoted, and the
controller's holding, if it still has it, goes on with its quiet interval. -/
def endWithholdByOrder (s : State) : State :=
  match s.ctl.withhold with
  | none => s
  | some w => endUse (demoteJob w.addr (dropReseat (closeWithhold .order s)))

/-! ### The view and the recent orders -/

/-- The view after an order (R18). -/
def updateView (o : Order) (s : State) : State :=
  match o with
  | .position c => { s with ctl.cyl := c }
  | .ret => { s with ctl.cyl := 0 }
  | .head h => { s with ctl.head := h }
  | .margin st off => { s with ctl.strobe := st, ctl.offset := off }
  | .targetRead _ => s
  | .targetWrite _ => s
  | .clear => s

/-- The recent orders with one more at the tail, the oldest leaving a full list (R35). -/
def pushRecent (r : OrderRecord) (l : List OrderRecord) : List OrderRecord := (l ++ [r]).drop ((l ++ [r]).length - 4)

/-- The order is appended to the recent orders unless it belongs to the service cylinder (R35). -/
def recordOrder (o : Order) (s : State) : State :=
  if viewOnService s then s else { s with ctl.recentOrders := pushRecent ⟨o, seconds s⟩ s.ctl.recentOrders }

/-- Taking an order: the current operation ends, then the view and the recent orders change (R15, R18, R35). -/
def takeOrder (o : Order) (s : State) : State := recordOrder o (updateView o (endWithholdByOrder (endOperation s)))

/-! ### Relaying and the shown lines -/

/-- An order is relayed through the drive port with holder CONTROLLER, behind any step in flight (R20, R132). -/
def relay (o : Order) (s : State) : State := takeDrive { s with drv.heldOrders := s.drv.heldOrders ++ [o] }

/-- A view settle of 1 ms starts; an earlier one has no further effect (R19). -/
def startViewSettle (s : State) : State := { s with ctl.settleDue := some (s.clock + Config.ms) }

/-- The lines of a new view cylinder on V or, in ACTIVE and CAPTIVE mode, by R19's table. -/
def positionView (s : State) : State :=
  if viewOnService s then { s with ctl.shownOnCylinder := true }
  else if realCylinder s s.ctl.cyl then
    let s := { s with ctl.shownOnCylinder := false }
    match s.svc.mode with
    | .captive => s
    | _ => startViewSettle s
  else { s with ctl.shownOnCylinder := false, ctl.shownPositionError := true, ctl.seekFailed := true }

/-- POSITION and RETURN once the view has changed: relayed in PASSIVE mode off V with shown ON CYLINDER false at once
(R20), else R19. -/
def actPosition (o : Order) (s : State) : State :=
  let s := { s with ctl.settleDue := none, ctl.seekFailed := false, ctl.errorCleared := false }
  if isPassive s && !viewOnService s then relay o { s with ctl.shownOnCylinder := false } else positionView s

/-- HEAD once the view has changed (R20, R21). -/
def actHead (h : Nat) (s : State) : State := if isPassive s && !viewOnService s then relay (.head h) s else s

/-- The offset the drive will have once every held order and the step in flight have ended (R20, log 14). -/
def expectedOffset (s : State) : Option Offset :=
  let held := s.drv.heldOrders.filterMap fun o =>
    match o with
    | .margin _ off => some off
    | _ => none
  match held.getLast?, s.drv.step with
  | some off, _ => some off
  | none, some st =>
    match st.order with
    | .margin _ off => some off
    | _ => s.drv.record.offset
  | none, none => s.drv.record.offset

/-- MARGIN once the view has changed (R20, R21): relayed in PASSIVE mode off V, with shown ON CYLINDER false at once when
it changes the drive's offset; else in ACTIVE mode the line drops when it changes the view offset on a real cylinder,
for a view settle, or until the next POSITION or RETURN after a cleared POSITION ERROR (R23, log 13). -/
def actMargin (st : Strobe) (off before : Offset) (s : State) : State :=
  if isPassive s then
    if viewOnService s then s
    else
      relay (.margin st off)
        (if expectedOffset s = some off then s else { s with ctl.shownOnCylinder := false })
  else if viewOnService s || !realCylinder s s.ctl.cyl || decide (off = before) then s
  else
    match s.svc.mode with
    | .captive => s
    | _ =>
      let s := { s with ctl.shownOnCylinder := false }
      if s.ctl.errorCleared then s else startViewSettle s

/-- Does a CLEAR now hold shown ON CYLINDER false until the next POSITION or RETURN (R23)? It does when it clears a
POSITION ERROR shown since the last of them and finds the line false with no view settle in progress, which a CLEAR does
not end (R19; log 13). -/
def clearHolds (s : State) : Bool :=
  s.ctl.shownPositionError && s.ctl.seekFailed && !s.ctl.shownOnCylinder && s.ctl.settleDue.isNone

/-- CLEAR (R23): the shown lines, and the drive where mode and condition allow. -/
def actClear (s : State) : State :=
  let s := { s with
    ctl.shownFault := false
    ctl.shownPositionError := false
    ctl.errorCleared := s.ctl.errorCleared || clearHolds s }
  if viewOnService s then s
  else if isPassive s then relay .clear s
  else if s.drv.condition = .turning ∧ (s.drv.lines.fault = true ∨ s.drv.lines.positionError = true) then
    relay .clear s
  else s

/-! ### The target decision -/

/-- The sector address a target names (R28). -/
def targetAddr (s : State) (sec : Nat) : Addr := ⟨s.ctl.cyl, s.ctl.head, sec⟩

/-- Does a PENDING read begin withholding? (R28) -/
def mayWithhold (s : State) : Bool :=
  decide (0 < s.svc.params.withholdLimit ∧ s.drv.condition = .turning) && !s.drv.resting

/-- Withholding begins (R36, R75): the record, the promotion, and the drive for a re-seat. -/
def beginWithhold (a : Addr) (s : State) : State :=
  let s := reorder (promoted a) s
  takeDrive { s with
    ctl.withhold := some ⟨a, s.clock, s.svc.params.withholdLimit, false⟩
    ctl.op := some (newOp .withheld a .awaitingDrive) }

/-- A TARGET READ of a real sector in ACTIVE mode, decided by the map (R28). -/
def decideRead (a : Addr) (s : State) : State :=
  match entryOf s a with
  | none => beginLive .liveRead a s
  | some e =>
    match e.body with
    | .pending => if mayWithhold s then beginWithhold a s else beginLive .liveRead a s
    | .settled .lost _ _ _ => beginLive .liveRead a s
    | .settled .overlay _ _ _ => beginServed .servedRead a s
    | .settled (.recovered _) _ _ _ => beginServed .servedRead a s

/-- TARGET READ (R27, R28). -/
def actTargetRead (sec : Nat) (s : State) : State :=
  let a := targetAddr s sec
  if !s.ctl.shownOnCylinder then s
  else if viewOnService s then beginServed .serviceRead a s
  else
    match s.svc.mode with
    | .passive => beginLive .liveRead a s
    | .captive => s
    | .active => if realAddr s a then decideRead a s else s

/-- TARGET WRITE (R27, R28). -/
def actTargetWrite (sec : Nat) (s : State) : State :=
  let a := targetAddr s sec
  if !s.ctl.shownOnCylinder then s
  else if viewOnService s then beginServed .serviceWrite a s
  else
    match s.svc.mode with
    | .passive => beginLive .liveWrite a s
    | .captive => s
    | .active => if realAddr s a then beginServed .servedWrite a s else s

/-! ### The seven orders -/

/-- POSITION (R19, R20). -/
def execPosition (dt cyl : Nat) (s : State) : Host.Outcome State Fault Refusal :=
  .next (settle (actPosition (.position cyl) (takeOrder (.position cyl) (begin dt s))))

/-- RETURN (R19, R20). -/
def execReturnOrder (dt : Nat) (s : State) : Host.Outcome State Fault Refusal :=
  .next (settle (actPosition .ret (takeOrder .ret (begin dt s))))

/-- HEAD (R20, R21). -/
def execHead (dt h : Nat) (s : State) : Host.Outcome State Fault Refusal :=
  .next (settle (actHead h (takeOrder (.head h) (begin dt s))))

/-- MARGIN (R20, R21). -/
def execMargin (dt : Nat) (strobe : Strobe) (offset : Offset) (s : State) : Host.Outcome State Fault Refusal :=
  .next (settle (actMargin strobe offset s.ctl.offset (takeOrder (.margin strobe offset) (begin dt s))))

/-- TARGET READ (R27, R28). -/
def execTargetRead (dt sec : Nat) (s : State) : Host.Outcome State Fault Refusal :=
  .next (settle (actTargetRead sec (takeOrder (.targetRead sec) (begin dt s))))

/-- TARGET WRITE (R27, R28). -/
def execTargetWrite (dt sec : Nat) (s : State) : Host.Outcome State Fault Refusal :=
  .next (settle (actTargetWrite sec (takeOrder (.targetWrite sec) (begin dt s))))

/-- CLEAR (R23). -/
def execClear (dt : Nat) (s : State) : Host.Outcome State Fault Refusal :=
  .next (settle (actClear (takeOrder .clear (begin dt s))))

end Sys2Proof.Machine
end

