-- ==== Sys2Proof/Machine/Frames.lean ====
section
/-!
DEFINITION. The frames the part builds: result codes and response frames (R181, R182, R207), the status frame (R183,
R208), the map entry record (R204, R209), and the point at which a command frame is taken (R179).
-/

namespace Sys2Proof.Machine

/-- The result codes (R181). -/
inductive Result where
  | done
  | state
  | range
  | full
  | inUse
  | notFound
  | checkFail
  | unknown
  | incomplete
  | noCommand
deriving DecidableEq, Repr

/-- Result codes as carried (R207). -/
def Result.code : Result → Nat
  | .done => 1
  | .state => 2
  | .range => 3
  | .full => 4
  | .inUse => 5
  | .notFound => 6
  | .checkFail => 7
  | .unknown => 8
  | .incomplete => 9
  | .noCommand => 10

/-- What a command answers: its result, header payload and body payload (R182). -/
structure Reply where
  result : Result
  header : List Nat
  body : List Nat
deriving DecidableEq, Repr

/-- A refusal's payload is 0 in every unit (R182). -/
def refuse (r : Result) : Reply := ⟨r, [], []⟩

/-- DONE with a header payload (R207). -/
def doneWith (header : List Nat) : Reply := ⟨.done, header, []⟩

/-- The units of a response frame (R207). -/
def responseUnits (tag : Nat) (r : Reply) : List Nat := [0x3AC, tag, r.result.code] ++ padTo 5 r.header ++ r.body

/-- The held response is replaced by the response to the command just taken (R178, R182). -/
def respond (tag : Nat) (r : Reply) (s : State) : State :=
  { s with svc.heldResponse := frameField s.straps (responseUnits tag r) }

/-- The body units of a frame, W−8 of them (R177). -/
def bodyUnits (st : Straps) : Nat := st.data - 8

/-! ### Records -/

/-- A map entry of four units (R204, R209), its PENDING counts read through from the job (R39). -/
def entryUnits (s : State) (e : Entry) : List Nat :=
  let counts := entryCounts s e
  let weak := weakCode4 counts.2
  [e.addr.cyl * 4 + weak / 4, e.addr.head * 256 + e.addr.sec * 4 + e.origin.code,
   e.body.conditionCode * 256 + counts.1, (e.body.slot?.getD 0) * 4 + weak % 4]

/-- The active job address: the head's while it is ACTIVE or VOTING (R82). -/
def activeJob (s : State) : Option Addr :=
  match headJob s with
  | some j => if j.state = .waiting then none else some j.addr
  | none => none

/-- The four units of the withholding report (R208); absent it shows absent codes (R202, R203; log 38). -/
def reportUnits : Option WithholdReport → List Nat
  | some r => addrUnits r.addr ++ [r.kind.code, r.duration]
  | none => [absentUnit, absentUnit, 0, absentUnit]

/-- The units of the status frame (R208). -/
def statusUnits (s : State) : List Nat :=
  [0x5C5, Config.partRevision, s.svc.mode.code, s.drv.condition.code, s.drv.holder.code, flagCode s.drv.resting,
   s.sweep.state.code, causeCode s.sweep.cause]
    ++ twoUnits s.sweep.next ++ twoUnits s.sweep.tracksRead ++ twoUnits s.sweep.tracksSkipped
    ++ twoUnits s.sweep.failuresFound
    ++ [s.seq.queue.length, s.map.entries.length, freeSlots s, s.log.index] ++ twoUnits s.log.lifetime
    ++ optAddrUnits (activeJob s) ++ reportUnits s.ctl.report

/-- The status frame as it stands (R183). -/
def statusFrame (s : State) : Field := frameField s.straps (statusUnits s)

/-! ### Taking a command -/

/-- The written field of the current operation has ended (R14, R179). -/
def endField (s : State) : State :=
  { s with ctl.op := s.ctl.op.map fun o => { o with fieldEnded := true } }

/-- A service command acts where a command frame can arrive: at the full end of a field written to service sector 0
(R179); elsewhere it is write data outside a transfer, which is ignored (R16; log 4, log 5). -/
def onFrame (act : State → State) (s : State) : State := if acceptsFrame s then act (endField s) else s

/-- A command's effect and reply made in one act (R179). -/
def answer (tag : Nat) (r : State × Reply) : State := respond tag r.2 r.1

end Sys2Proof.Machine
end

