-- ==== Sys2Proof/Machine/TableCommands.lean ====
section
/-!
DEFINITION. The service commands of the geometry, the parameters, the tables, the head records and the log (R87 to R89,
R93, R169, R175, R176, R190, R191, R194, R195). Each answers in the act of being taken and moves no other block, but for
the parameters, whose limiter codes act at once (R145).
-/

namespace Sys2Proof.Machine

/-! ### Geometry and parameters -/

/-- SET GEOMETRY's effect, judged in the order of R190. -/
def setGeometryReply (cyls heads secs : Nat) (s : State) : State × Reply :=
  if !isPassive s then (s, refuse .state)
  else if ¬(1 ≤ cyls ∧ cyls ≤ 1020 ∧ 1 ≤ heads ∧ heads ≤ 16 ∧ 1 ≤ secs ∧ secs ≤ 64) then (s, refuse .range)
  else if s.map.entries ≠ [] then (s, refuse .inUse)
  else
    ({ s with svc.geometry := some ⟨cyls, heads, secs⟩, map.staging := none }, doneWith [cyls, heads, secs])

/-- A value brought into a range (R191). -/
def clamp (lo hi v : Nat) : Nat := max lo (min v hi)

/-- The parameter record after a SET PARAMETERS (R191). -/
def selectParams (mask wl qi pt wc rc : Nat) (p : Params) : Params :=
  { withholdLimit := if mask.testBit 0 then clamp 0 4000 wl else p.withholdLimit
    quietInterval := if mask.testBit 1 then clamp 10 4000 qi else p.quietInterval
    positionTimeout := if mask.testBit 2 then clamp 50 4000 pt else p.positionTimeout
    workCode := if mask.testBit 3 then clamp 0 255 wc else p.workCode
    restCode := if mask.testBit 4 then clamp 0 255 rc else p.restCode }

/-- A rest ends (R144). -/
def endRest (s : State) : State := { s with drv.resting := false, drv.work := 0, drv.idle := 0 }

/-- What a change of the work or rest code does at once (R145): a limiter turned off ends a rest and zeroes the counter,
one turned on starts it at 0, a shorter rest that has passed already ends. `old` is the record before the command. -/
def limiterActs (old : Params) (s : State) : State :=
  if s.svc.params.workCode = old.workCode ∧ s.svc.params.restCode = old.restCode then s
  else if !limiterOn s.svc.params then (if s.drv.resting then endRest s else { s with drv.work := 0 })
  else if !limiterOn old then { s with drv.work := 0 }
  else if s.drv.resting && decide (s.drv.restStart + restDuration s ≤ s.clock) then endRest s
  else s

/-- The parameter record as reported (R207). -/
def Params.units (p : Params) : List Nat :=
  [p.withholdLimit, p.quietInterval, p.positionTimeout, p.workCode, p.restCode]

/-- SET PARAMETERS' effect (R191, R145). -/
def setParametersReply (mask wl qi pt wc rc : Nat) (s : State) : State × Reply :=
  let p := selectParams mask wl qi pt wc rc s.svc.params
  let s' := limiterActs s.svc.params { s with svc.params := p }
  (s', doneWith p.units)

/-! ### Zones and ladders -/

/-- LOAD ZONE's effect (R93). -/
def loadZoneReply (index head low high ladder : Nat) (s : State) : State × Reply :=
  if 15 < index ∨ (15 < head ∧ head ≠ absentUnit) ∨ 1019 < low ∨ 1019 < high ∨ high < low ∨ 7 < ladder then
    (s, refuse .range)
  else
    let z : Zone := ⟨if head = absentUnit then none else some head, low, high, ladder⟩
    ({ s with tables.zones := s.tables.zones.set index (some z) }, doneWith [index, head, low, high, ladder])

/-- CLEAR ZONE's effect (R93). -/
def clearZoneReply (index : Nat) (s : State) : State × Reply :=
  if 15 < index then (s, refuse .range)
  else ({ s with tables.zones := s.tables.zones.set index none }, doneWith [index])

/-- Put a ladder into the tables (R84). -/
def putLadder (k : Nat) (l : Ladder) (s : State) : State := { s with tables.ladders := s.tables.ladders.set k l }

/-- SET LADDER HEADER's effect (R84, R87). -/
def setLadderHeaderReply (k m l budget : Nat) (s : State) : State × Reply :=
  if 7 < k then (s, refuse .range)
  else
    let lad := { ladderOf s k with m := clamp 1 7 m, l := clamp 0 8 l, budget := clamp 1 255 budget }
    (putLadder k lad s, doneWith [k, lad.m, lad.l, lad.budget])

/-- LOAD RUNG's effect, judged in the order of R88. -/
def loadRungReply (k i r0 r1 : Nat) (s : State) : State × Reply :=
  if 7 < k then (s, refuse .range)
  else
    match rungOf r0 r1 with
    | none => (s, refuse .range)
    | some r =>
      let lad := ladderOf s k
      let count := lad.rungs.length
      if i < count then
        (putLadder k { lad with rungs := lad.rungs.set i r } s, doneWith ([k, i] ++ r.units ++ [count]))
      else if i = count then
        if count < Config.rungRoom then
          (putLadder k { lad with rungs := lad.rungs ++ [r] } s, doneWith ([k, i] ++ r.units ++ [count + 1]))
        else (s, refuse .full)
      else (s, refuse .range)

/-- CLEAR LADDER's effect (R89). -/
def clearLadderReply (k : Nat) (s : State) : State × Reply :=
  if 7 < k then (s, refuse .range)
  else (putLadder k { ladderOf s k with rungs := [] } s, doneWith [k, 0])

/-- READ LADDER (R194). -/
def readLadderReply (k : Nat) (s : State) : State × Reply :=
  if 7 < k then (s, refuse .range)
  else
    let lad := ladderOf s k
    (s, ⟨.done, [k, lad.m, lad.l, lad.budget, lad.rungs.length], lad.rungs.flatMap Rung.units⟩)

/-- READ ZONES (R194). -/
def readZonesReply (s : State) : State × Reply := (s, ⟨.done, [], s.tables.zones.flatMap zoneUnits⟩)

/-! ### Heads and the log -/

/-- The record of a head after the fields a SET HEAD selects (R169). -/
def selectHead (mask threshold score : Nat) (r : HeadRecord) : HeadRecord :=
  { r with
    threshold := if mask.testBit 0 then clamp 0 200 threshold else r.threshold
    score := if mask.testBit 1 then clamp 0 200 score else r.score }

/-- The record of a head (R162). -/
def headRecord (s : State) (h : Nat) : HeadRecord := s.heads.getD h HeadRecord.fresh

/-- SET HEAD's effect (R169). -/
def setHeadReply (h mask threshold score : Nat) (s : State) : State × Reply :=
  if 15 < h then (s, refuse .range)
  else
    let s' := changeHead h (selectHead mask threshold score) s
    let r := headRecord s' h
    (s', ⟨.done, [h, r.score, r.threshold, flagCode r.worn],
      twoUnits r.cleanReads ++ twoUnits r.recoveries ++ twoUnits r.losses⟩)

/-- READ HEALTH (R195). -/
def readHealthReply (group : Nat) (s : State) : State × Reply :=
  if 1 < group then (s, refuse .range)
  else (s, ⟨.done, [group], ((s.heads.drop (group * 8)).take 8).flatMap HeadRecord.units⟩)

/-- The log entry at a position counted from the newest: circle position index + 1 − p, with 8 added below 1 (R175). -/
def logEntry (p : Nat) (l : IncidentLog) : Option Incident :=
  match l.positions[(l.index + 8 - p) % 8]? with
  | some x => x
  | none => none

/-- READ LOG (R175, R195). -/
def readLogReply (p : Nat) (s : State) : State × Reply :=
  if p = 0 ∨ 8 < p then (s, refuse .range)
  else if s.log.held < p then (s, refuse .notFound)
  else
    match logEntry p s.log with
    | none => (s, refuse .notFound)
    | some i => (s, ⟨.done, [p, s.log.held] ++ twoUnits s.log.lifetime, i.units⟩)

/-- CLEAR LOG's effect (R176). -/
def clearLogReply (s : State) : State × Reply :=
  ({ s with log.positions := List.replicate 8 none, log.index := 0, log.held := 0 },
    doneWith (twoUnits s.log.lifetime))

/-! ### The commands -/

/-- SET_GEOMETRY (R190). -/
def execSetGeometry (dt tag cyls heads secs : Nat) (s : State) : Host.Outcome State Fault Refusal :=
  .next (onFrame (fun s => answer tag (setGeometryReply cyls heads secs s)) (begin dt s))

/-- SET_PARAMETERS (R191); rest may begin or the arbiter choose at once (R145). -/
def execSetParameters (dt tag mask withholdLimit quietInterval positionTimeout workCode restCode : Nat) (s : State) :
    Host.Outcome State Fault Refusal :=
  .next (onFrame
    (fun s => settle
      (answer tag (setParametersReply mask withholdLimit quietInterval positionTimeout workCode restCode s)))
    (begin dt s))

/-- LOAD_ZONE (R93). -/
def execLoadZone (dt tag index head low high ladder : Nat) (s : State) : Host.Outcome State Fault Refusal :=
  .next (onFrame (fun s => answer tag (loadZoneReply index head low high ladder s)) (begin dt s))

/-- CLEAR_ZONE (R93). -/
def execClearZone (dt tag index : Nat) (s : State) : Host.Outcome State Fault Refusal :=
  .next (onFrame (fun s => answer tag (clearZoneReply index s)) (begin dt s))

/-- SET_LADDER_HEADER (R87). -/
def execSetLadderHeader (dt tag ladder m l budget : Nat) (s : State) : Host.Outcome State Fault Refusal :=
  .next (onFrame (fun s => answer tag (setLadderHeaderReply ladder m l budget s)) (begin dt s))

/-- LOAD_RUNG (R88). -/
def execLoadRung (dt tag ladder index rung0 rung1 : Nat) (s : State) : Host.Outcome State Fault Refusal :=
  .next (onFrame (fun s => answer tag (loadRungReply ladder index rung0 rung1 s)) (begin dt s))

/-- CLEAR_LADDER (R89). -/
def execClearLadder (dt tag ladder : Nat) (s : State) : Host.Outcome State Fault Refusal :=
  .next (onFrame (fun s => answer tag (clearLadderReply ladder s)) (begin dt s))

/-- SET_HEAD (R169). -/
def execSetHead (dt tag head mask threshold score : Nat) (s : State) : Host.Outcome State Fault Refusal :=
  .next (onFrame (fun s => answer tag (setHeadReply head mask threshold score s)) (begin dt s))

/-- READ_HEALTH (R195). -/
def execReadHealth (dt tag group : Nat) (s : State) : Host.Outcome State Fault Refusal :=
  .next (onFrame (fun s => answer tag (readHealthReply group s)) (begin dt s))

/-- READ_LOG (R175). -/
def execReadLog (dt tag pos : Nat) (s : State) : Host.Outcome State Fault Refusal :=
  .next (onFrame (fun s => answer tag (readLogReply pos s)) (begin dt s))

/-- CLEAR_LOG (R176). -/
def execClearLog (dt tag : Nat) (s : State) : Host.Outcome State Fault Refusal :=
  .next (onFrame (fun s => answer tag (clearLogReply s)) (begin dt s))

/-- READ_LADDER (R194). -/
def execReadLadder (dt tag ladder : Nat) (s : State) : Host.Outcome State Fault Refusal :=
  .next (onFrame (fun s => answer tag (readLadderReply ladder s)) (begin dt s))

/-- READ_ZONES (R194). -/
def execReadZones (dt tag : Nat) (s : State) : Host.Outcome State Fault Refusal :=
  .next (onFrame (fun s => answer tag (readZonesReply s)) (begin dt s))

end Sys2Proof.Machine
end

