-- ==== Sys2Proof/Machine/MapCommands.lean ====
section
/-!
DEFINITION. The service commands of the map, the store and the queue: QUEUE SECTOR (R52), RELEASE ENTRY (R54), IMPORT
PAGE (R44, R53), EXPORT PAGE (R198), READ MAP (R199) and READ QUEUE (R200).
-/

namespace Sys2Proof.Machine

/-- The checks a command on a sector address makes first (R180): a geometry, then a real address (R202). -/
def addressed (u0 u1 : Nat) (s : State) (act : Addr → State × Reply) : State × Reply :=
  match s.svc.geometry with
  | none => (s, refuse .state)
  | some g =>
    match g.addrOf u0 u1 with
    | none => (s, refuse .range)
    | some a => act a

/-- The state code of a sector's entry, 0 without one (R203). -/
def entryStateCode (s : State) (a : Addr) : Nat :=
  match entryOf s a with
  | some e => e.body.stateCode
  | none => 0

/-! ### QUEUE SECTOR and RELEASE ENTRY -/

/-- A LOST entry queued again (R52): its slot is freed, it becomes PENDING with origin SERVICE, and gets a new job. -/
def requeue (a : Addr) (slot : Nat) (s : State) : State :=
  enqueueJob (newJob s a .background .service)
    { s with
      map.entries := s.map.entries.map fun e => if e.addr = a then ⟨a, .service, .pending⟩ else e
      map.store := dropSlot slot s.map.store }

/-- QUEUE SECTOR's answer DONE (R196): the entry's state and the queue depth afterwards, also where the job ended LOST in
the act of its admission (R92, R182), by the model's choice (log 55). -/
def queued (a : Addr) (s : State) : State × Reply := (s, doneWith [entryStateCode s a, s.seq.queue.length])

/-- QUEUE SECTOR of a real sector, by its entry (R52). -/
def queueEntry (a : Addr) (s : State) : State × Reply :=
  match entryOf s a with
  | none =>
    match refusalOf s a with
    | some _ => (s, refuse .full)
    | none => queued a (admitSector a .background .service s)
  | some e =>
    match e.body with
    | .pending => queued a s
    | .settled .lost _ _ k =>
      if Config.queueRoom ≤ s.seq.queue.length then (s, refuse .full) else queued a (requeue a k s)
    | .settled (.recovered _) _ _ _ => (s, refuse .inUse)
    | .settled .overlay _ _ _ => (s, refuse .inUse)

/-- QUEUE SECTOR's effect (R52, R196). -/
def queueSectorReply (u0 u1 : Nat) (s : State) : State × Reply :=
  if isPassive s then (s, refuse .state) else addressed u0 u1 s fun a => queueEntry a s

/-- RELEASE ENTRY's effect (R54, R196). -/
def releaseEntryReply (u0 u1 : Nat) (s : State) : State × Reply :=
  addressed u0 u1 s fun a =>
    match entryOf s a with
    | none => (s, refuse .notFound)
    | some _ => (cancelJob a (dropEntry a s), doneWith [0])

/-! ### IMPORT PAGE -/

/-- The staging image is emptied (R44). -/
def dropStaging (s : State) : State := { s with map.staging := none }

/-- The slot a sector's entry names, as reported (R197). -/
def slotOf (s : State) (a : Addr) : Nat :=
  match entryOf s a with
  | some e => e.body.slot?.getD 0
  | none => 0

/-- An import that has completed reports no page expected and the slot (R207). -/
def imported (a : Addr) (s : State) : State × Reply := (s, doneWith [0, slotOf s a])

/-- A whole image imported, by the sector's entry (R53). -/
def importImage (a : Addr) (image : Field) (s : State) : State × Reply :=
  if !passes s.straps.bits image then (s, refuse .checkFail)
  else
    match entryOf s a with
    | none =>
      if freeEntries s = 0 ∨ freeSlots s = 0 then (s, refuse .full)
      else
        imported a (settleInNewSlot a (.recovered .imported) image 0 none (addEntry ⟨a, .service, .pending⟩ s))
    | some e =>
      match e.body with
      | .pending =>
        let counts := entryCounts s e
        imported a (cancelJob a (settleInNewSlot a (.recovered .imported) image counts.1 counts.2 s))
      | .settled .overlay _ _ _ => (s, refuse .inUse)
      | .settled .lost reads weak k =>
        imported a (settleInOwnSlot a (.recovered .imported) image reads weak k s)
      | .settled (.recovered _) reads weak k =>
        imported a (settleInOwnSlot a (.recovered .imported) image reads weak k s)

/-- The image units of an imported page: W−8 of the body, or its first 18 on page 2 (R197). -/
def importUnits (st : Straps) (page : Nat) (us : List Nat) : List Nat :=
  (padTo (if page = 2 then 18 else bodyUnits st) us).map lowUnit

/-- Does the staging image expect this page of this sector? (R44) -/
def expects (a : Addr) (page : Nat) (st : Staging) : Bool := decide (st.addr = a ∧ st.nextPage = page)

/-- The bytes of the words that image units give, packed (R7, R44). -/
def packUnits (b : Nat) (us : List Nat) : List Byte := packImage b (assemble b us)

/-- A page 1 or 2 arrives (R44): staged, completing the image, or INCOMPLETE. Every answer but page 1's DONE empties
the staging image. -/
def laterPage (a : Addr) (page : Nat) (us : List Nat) (s : State) : State × Reply :=
  match s.map.staging with
  | none => (s, refuse .incomplete)
  | some st =>
    if !expects a page st then (dropStaging s, refuse .incomplete)
    else if page = 1 then
      ({ s with map.staging := some ⟨a, 2, st.units ++ us, st.image ++ packUnits s.straps.bits us⟩ }, doneWith [2, 0])
    else
      importImage a
        (unpackImage s.straps.bits (s.straps.data + 1) (st.image ++ packUnits s.straps.bits us)) (dropStaging s)

/-- IMPORT PAGE's effect, judged in the order of R197. -/
def importPageReply (u0 u1 page : Nat) (us : List Nat) (s : State) : State × Reply :=
  match s.svc.geometry with
  | none => (dropStaging s, refuse .state)
  | some g =>
    if 2 < page then (dropStaging s, refuse .range)
    else
      match g.addrOf u0 u1 with
      | none => (dropStaging s, refuse .range)
      | some a =>
        let us := importUnits s.straps page us
        if page = 0 then ({ s with map.staging := some ⟨a, 1, us, packUnits s.straps.bits us⟩ }, doneWith [1, 0])
        else laterPage a page us s

/-! ### EXPORT PAGE, READ MAP and READ QUEUE -/

/-- EXPORT PAGE of a sector (R56, R198). -/
def exportImage (a : Addr) (page : Nat) (s : State) : State × Reply :=
  match entryOf s a with
  | none => (s, refuse .notFound)
  | some e =>
    match e.body.slot? with
    | none => (s, refuse .notFound)
    | some k =>
      (s, ⟨.done, [e.body.stateCode, e.body.methodCode, page],
        pageUnits s.straps page (imageUnits (readSlot s k))⟩)

/-- EXPORT PAGE, judged in the order of R198. -/
def exportPageReply (u0 u1 page : Nat) (s : State) : State × Reply :=
  if s.svc.geometry.isSome = true ∧ 2 < page then (s, refuse .range)
  else addressed u0 u1 s fun a => exportImage a page s

/-- How many four-unit records the body holds (R199). -/
def recordsHeld (st : Straps) : Nat := bodyUnits st / 4

/-- The next start after the entries reported: absent when no entries remain (R56, R199). -/
def nextStart (g : Geometry) (reported rest : List Entry) : List Nat :=
  if rest = [] then [absentUnit, absentUnit] else optAddrUnits (reported.getLast?.bind fun e => g.successor e.addr)

/-- READ MAP (R56, R199). -/
def readMapReply (u0 u1 : Nat) (s : State) : State × Reply :=
  match s.svc.geometry with
  | none => (s, refuse .state)
  | some g =>
    match g.addrOf u0 u1 with
    | none => (s, refuse .range)
    | some a =>
      let found := s.map.entries.filter fun e => !e.addr.lt a
      let reported := found.take (recordsHeld s.straps)
      let rest := found.drop (recordsHeld s.straps)
      (s, ⟨.done, [reported.length, flagCode (decide (rest ≠ []))] ++ nextStart g reported rest,
        reported.flatMap (entryUnits s)⟩)

/-- READ QUEUE (R200). -/
def readQueueReply (pos : Nat) (s : State) : State × Reply :=
  if pos = 0 ∨ 32 < pos then (s, refuse .range)
  else if s.seq.queue.length < pos then (s, refuse .notFound)
  else
    let found := s.seq.queue.drop (pos - 1)
    let reported := found.take (recordsHeld s.straps)
    let next := if found.length ≤ recordsHeld s.straps then absentUnit else pos + reported.length
    (s, ⟨.done, [reported.length, s.seq.queue.length, next], reported.flatMap Job.units⟩)

/-! ### The commands -/

/-- QUEUE_SECTOR (R52). -/
def execQueueSector (dt tag addr0 addr1 : Nat) (s : State) : Host.Outcome State Fault Refusal :=
  .next (onFrame (fun s => settle (answer tag (queueSectorReply addr0 addr1 s))) (begin dt s))

/-- RELEASE_ENTRY (R54). -/
def execReleaseEntry (dt tag addr0 addr1 : Nat) (s : State) : Host.Outcome State Fault Refusal :=
  .next (onFrame (fun s => settle (answer tag (releaseEntryReply addr0 addr1 s))) (begin dt s))

/-- IMPORT_PAGE (R44, R53). -/
def execImportPage (dt tag addr0 addr1 page : Nat) (units : List Nat) (s : State) :
    Host.Outcome State Fault Refusal :=
  .next (onFrame (fun s => settle (answer tag (importPageReply addr0 addr1 page units s))) (begin dt s))

/-- EXPORT_PAGE (R198). -/
def execExportPage (dt tag addr0 addr1 page : Nat) (s : State) : Host.Outcome State Fault Refusal :=
  .next (onFrame (fun s => answer tag (exportPageReply addr0 addr1 page s)) (begin dt s))

/-- READ_MAP (R199). -/
def execReadMap (dt tag addr0 addr1 : Nat) (s : State) : Host.Outcome State Fault Refusal :=
  .next (onFrame (fun s => answer tag (readMapReply addr0 addr1 s)) (begin dt s))

/-- READ_QUEUE (R200). -/
def execReadQueue (dt tag pos : Nat) (s : State) : Host.Outcome State Fault Refusal :=
  .next (onFrame (fun s => answer tag (readQueueReply pos s)) (begin dt s))

end Sys2Proof.Machine
end

