-- ==== Sys2Proof/Machine/ModeCommands.lean ====
section
/-!
DEFINITION. The service commands of the sweep (R148, R158, R159) and of the mode (R22, R185 to R188).
-/

namespace Sys2Proof.Machine

/-! ### The sweep -/

/-- The sweep descriptor as reported (R207). -/
def sweepReply (w : Sweep) : Reply :=
  ⟨.done, [w.state.code, causeCode w.cause],
    twoUnits w.base ++ twoUnits w.limit ++ twoUnits w.next ++ twoUnits w.stop ++ twoUnits w.tracksRead
      ++ twoUnits w.tracksSkipped ++ twoUnits w.failuresFound⟩

/-- A sweep that was SWEEPING gives up the drive as its descriptor changes (R134, R148, R159); a fault episode in
progress ends without judgement, by the model's choice (log 60). -/
def replaceSweep (w : Sweep) (s : State) : State :=
  let s' := { s with sweep := w }
  if s.sweep.state = .sweeping then giveUp s' else s'

/-- The descriptor a START SWEEP puts in place (R148). -/
def startedSweep (base limit first stop : Nat) : Sweep :=
  { Sweep.fresh with base := base, limit := limit, next := first, stop := stop, state := .waiting }

/-- START SWEEP's effect (R148). -/
def startSweepReply (base limit first stop : Nat) (s : State) : State × Reply :=
  if isPassive s then (s, refuse .state)
  else
    match s.svc.geometry with
    | none => (s, refuse .state)
    | some g =>
      if base < limit ∧ limit ≤ g.tracks ∧ base ≤ first ∧ first < limit ∧ base ≤ stop ∧ stop < limit then
        (replaceSweep (startedSweep base limit first stop) s, sweepReply (startedSweep base limit first stop))
      else (s, refuse .range)

/-- SET SWEEP STOP's effect, by the sweep's state (R158). The answer shows the descriptor before the grant that a DONE
sweep made WAITING may get in the same moment, by the model's choice (log 57). -/
def setSweepStopReply (stop : Nat) (s : State) : State × Reply :=
  if s.sweep.state = .idle then (s, refuse .state)
  else if ¬(s.sweep.base ≤ stop ∧ stop < s.sweep.limit) then (s, refuse .range)
  else
    let w := { s.sweep with
      stop := stop
      state := if s.sweep.state = .done then .waiting else s.sweep.state }
    ({ s with sweep := w }, sweepReply w)

/-- The sweep as ABORT SWEEP and PASSIVATE leave it (R159). -/
def idleSweep (w : Sweep) : Sweep := { resetTrack w with state := .idle }

/-- ABORT SWEEP's effect (R159). -/
def abortSweepReply (s : State) : State × Reply := (replaceSweep (idleSweep s.sweep) s, sweepReply (idleSweep s.sweep))

/-! ### The mode -/

/-- A view settle of a mode change (R22). -/
def modeSettle (s : State) : State := if s.ctl.shownOnCylinder then s else startViewSettle s

/-- ACTIVATE's shown lines (R22). -/
def activateLines (s : State) : State :=
  if viewOnService s then { s with ctl.shownOnCylinder := true }
  else if realCylinder s s.ctl.cyl then modeSettle s
  else { s with ctl.shownPositionError := true }

/-- ACTIVATE's effect (R185, R186). -/
def activateReply (s : State) : State × Reply :=
  if isPassive s && s.svc.geometry.isSome then
    (activateLines { s with svc.mode := .active }, doneWith [Mode.code .active])
  else (s, refuse .state)

/-- CAPTIVE ON's shown lines: held false on a real cylinder (R22). -/
def captiveLines (s : State) : State :=
  if !viewOnService s && realCylinder s s.ctl.cyl then
    { s with ctl.shownOnCylinder := false, ctl.settleDue := none }
  else s

/-- CAPTIVE ON's effect (R185, R187). -/
def captiveOnReply (s : State) : State × Reply :=
  if s.svc.mode = .active then (captiveLines { s with svc.mode := .captive }, doneWith [Mode.code .captive])
  else (s, refuse .state)

/-- The shown lines of CAPTIVE OFF and PASSIVATE: on a real cylinder ON CYLINDER is true 1 ms later (R22). -/
def releaseLines (s : State) : State :=
  if !viewOnService s && realCylinder s s.ctl.cyl then startViewSettle s else s

/-- CAPTIVE OFF's effect (R185, R187). -/
def captiveOffReply (s : State) : State × Reply :=
  if s.svc.mode = .captive then (releaseLines { s with svc.mode := .active }, doneWith [Mode.code .active])
  else (s, refuse .state)

/-- Every vote is marked for discard (R116, R118). -/
def markAllDiscard (s : State) : State :=
  { s with
    eng.inFlight := s.eng.inFlight.map fun v => { v with discard := true }
    eng.waiting := s.eng.waiting.map fun v => { v with discard := true } }

/-- Every job is cancelled and its PENDING entry removed (R55, R81). -/
def cancelAll (s : State) : State :=
  let s := emptyHeadWork (markAllDiscard s)
  { s with
    seq.queue := []
    map.entries := s.map.entries.filter fun e => e.body.slot?.isSome }

/-- The limiter at PASSIVATE (R145). -/
def clearLimiter (s : State) : State := endRest s

/-- PASSIVATE's effect (R188): jobs, sweep, limiter and drive, then the mode and its lines. What becomes of a drive that
was to pass to the controller, and of a fault episode, is the model's choice (logs 59 and 60). -/
def passivateReply (s : State) : State × Reply :=
  if isPassive s then (s, refuse .state)
  else
    let s' := cancelAll s
    let s' := giveUp (clearLimiter { s' with sweep := idleSweep s'.sweep })
    (releaseLines { s' with svc.mode := .passive }, doneWith [Mode.code .passive, s.seq.queue.length])

/-! ### The commands -/

/-- START_SWEEP (R148). -/
def execStartSweep (dt tag base0 base1 limit0 limit1 first0 first1 stop0 stop1 : Nat) (s : State) :
    Host.Outcome State Fault Refusal :=
  .next (onFrame
    (fun s => settle (answer tag
      (startSweepReply (fromUnits base0 base1) (fromUnits limit0 limit1) (fromUnits first0 first1)
        (fromUnits stop0 stop1) s)))
    (begin dt s))

/-- SET_SWEEP_STOP (R158). -/
def execSetSweepStop (dt tag stop0 stop1 : Nat) (s : State) : Host.Outcome State Fault Refusal :=
  .next (onFrame (fun s => settle (answer tag (setSweepStopReply (fromUnits stop0 stop1) s))) (begin dt s))

/-- ABORT_SWEEP (R159). -/
def execAbortSweep (dt tag : Nat) (s : State) : Host.Outcome State Fault Refusal :=
  .next (onFrame (fun s => settle (answer tag (abortSweepReply s))) (begin dt s))

/-- ACTIVATE (R186). -/
def execActivate (dt tag : Nat) (s : State) : Host.Outcome State Fault Refusal :=
  .next (onFrame (fun s => settle (answer tag (activateReply s))) (begin dt s))

/-- CAPTIVE_ON (R187). -/
def execCaptiveOn (dt tag : Nat) (s : State) : Host.Outcome State Fault Refusal :=
  .next (onFrame (fun s => answer tag (captiveOnReply s)) (begin dt s))

/-- CAPTIVE_OFF (R187). -/
def execCaptiveOff (dt tag : Nat) (s : State) : Host.Outcome State Fault Refusal :=
  .next (onFrame (fun s => answer tag (captiveOffReply s)) (begin dt s))

/-- PASSIVATE (R188). -/
def execPassivate (dt tag : Nat) (s : State) : Host.Outcome State Fault Refusal :=
  .next (onFrame (fun s => settle (answer tag (passivateReply s))) (begin dt s))

end Sys2Proof.Machine
end

