-- ==== Sys2Proof/Machine/Gates.lean ====
section
/-!
DEFINITION. The gates of the controller (R16, R29 to R34, R41), the fields it writes (R14, R31, R49), the judgement of a
field written to service sector 0 (R179), and the end of a served transfer and the generated MATCH (R29, R128).
-/

namespace Sys2Proof.Machine

/-! ### Command frames -/

/-- A decoded command of a frame is carried out exactly as its own row does (R179). The other rows are no service
commands, and `decodeFrame` names none of them. -/
def runCommand (i : Instr) (s : State) : State :=
  match i with
  | .setGeometry _ tag c h n => answer tag (setGeometryReply c h n s)
  | .setParameters _ tag m a b c d e => settle (answer tag (setParametersReply m a b c d e s))
  | .loadZone _ tag k h lo hi l => answer tag (loadZoneReply k h lo hi l s)
  | .clearZone _ tag k => answer tag (clearZoneReply k s)
  | .setLadderHeader _ tag k m l b => answer tag (setLadderHeaderReply k m l b s)
  | .loadRung _ tag k j r0 r1 => answer tag (loadRungReply k j r0 r1 s)
  | .clearLadder _ tag k => answer tag (clearLadderReply k s)
  | .setHead _ tag h m th sc => answer tag (setHeadReply h m th sc s)
  | .startSweep _ tag b0 b1 l0 l1 f0 f1 s0 s1 =>
    settle (answer tag
      (startSweepReply (fromUnits b0 b1) (fromUnits l0 l1) (fromUnits f0 f1) (fromUnits s0 s1) s))
  | .setSweepStop _ tag s0 s1 => settle (answer tag (setSweepStopReply (fromUnits s0 s1) s))
  | .abortSweep _ tag => settle (answer tag (abortSweepReply s))
  | .queueSector _ tag a0 a1 => settle (answer tag (queueSectorReply a0 a1 s))
  | .releaseEntry _ tag a0 a1 => settle (answer tag (releaseEntryReply a0 a1 s))
  | .importPage _ tag a0 a1 p us => settle (answer tag (importPageReply a0 a1 p us s))
  | .exportPage _ tag a0 a1 p => answer tag (exportPageReply a0 a1 p s)
  | .readMap _ tag a0 a1 => answer tag (readMapReply a0 a1 s)
  | .readQueue _ tag p => answer tag (readQueueReply p s)
  | .readHealth _ tag g => answer tag (readHealthReply g s)
  | .readLog _ tag p => answer tag (readLogReply p s)
  | .clearLog _ tag => answer tag (clearLogReply s)
  | .readLadder _ tag k => answer tag (readLadderReply k s)
  | .readZones _ tag => answer tag (readZonesReply s)
  | .activate _ tag => settle (answer tag (activateReply s))
  | .captiveOn _ tag => answer tag (captiveOnReply s)
  | .captiveOff _ tag => answer tag (captiveOffReply s)
  | .passivate _ tag => settle (answer tag (passivateReply s))
  | .powerUp _ _ _ _ _ _ _ _ _ | .position _ _ | .head _ _ | .returnOrder _ | .margin _ _ _ | .targetRead _ _
  | .targetWrite _ _ | .clear _ | .readGate _ | .readGateFalls _ | .writeGate _ | .writeGateFalls _
  | .writeFieldFull _ _ | .writeClockTimeout _ | .commandFrameRefused _ _ | .driveMatch _ | .captureFull _ _ _
  | .readClockTimeout _ | .servedTransferEnds _ | .driveIndex _ | .driveReadyFalls _ | .driveReadyRises _
  | .driveFaultRises _ | .driveFaultFalls _ | .positioningStepCompletes _ | .positioningStepFails _
  | .positionTimeout | .marginUnknownSettle | .faultEpisodeTimeout | .indexWatchdog | .generatedIndex
  | .generatedMatch | .viewSettle | .quietInterval | .withholdLimit | .voteCompletes _ | .workDurationReached
  | .restEnds | .idleTimer | .driveProtectChanges _ _ => s

/-- A full field written to service sector 0 is judged (R179): its check, its mark, its code, then the command. -/
def judgeField (f : Field) (s : State) : State :=
  let units := fieldUnits s.straps f
  if !passes s.straps.bits f then respond 0 (refuse .checkFail) s
  else if unitAt units 0 ≠ commandMark then respond 0 (refuse .unknown) s
  else
    match decodeFrame units with
    | none => respond (unitAt units 2) (refuse .unknown) s
    | some i => runCommand i s

/-- COMMAND_FRAME_REFUSED: a full field arrives at service sector 0 (R179). A field that is a command after all is taken
as one (log 5). -/
def execCommandFrameRefused (dt : Nat) (field : List Nat) (s : State) : Host.Outcome State Fault Refusal :=
  .next (onFrame (fun s => judgeField (takeField s.straps field) s) (begin dt s))

/-! ### Written fields -/

/-- A controller write has ended full (R49): the sector becomes an OVERLAY with the field as written. A PENDING entry
takes the claimed slot and its job is cancelled. -/
def overlay (a : Addr) (f : Field) (s : State) : State :=
  match entryOf s a with
  | none => settleInNewSlot a .overlay f 0 none (addEntry ⟨a, .controller, .pending⟩ s)
  | some e =>
    match e.body with
    | .pending =>
      let counts := entryCounts s e
      cancelJob a (settleInNewSlot a .overlay f counts.1 counts.2 s)
    | .settled _ reads weak k => settleInOwnSlot a .overlay f reads weak k s

/-- Is the current operation a write in transfer whose field has not ended? (R14) -/
def writing (s : State) : Option Op :=
  match s.ctl.op with
  | none => none
  | some o =>
    if o.phase = .transferring ∧ o.fieldEnded = false ∧
        (o.kind = .servedWrite ∨ o.kind = .serviceWrite ∨ o.kind = .liveWrite) then some o
    else none

/-- WRITE_FIELD_FULL (R14): an overlay on a served write (R49), a command at service sector 0 (R179), nothing at other
service sectors (R31), and on a live write the data passed to the drive (R34). -/
def execWriteFieldFull (dt : Nat) (field : List Nat) (s : State) : Host.Outcome State Fault Refusal :=
  let s := begin dt s
  match writing s with
  | none => .next s
  | some o =>
    let f := takeField s.straps field
    let s := endField s
    match o.kind with
    | .servedWrite => .next (settle (releaseClaim (overlay o.addr f s)))
    | .liveWrite => .next (emit (.writeData f) s)
    | _ => if o.addr.head = 0 ∧ o.addr.sec = 0 then .next (judgeField f s) else .next s

/-- Write data clocked outside a full field: on a live write it has been passed to the drive (R34; log 39). -/
def passBits (bits : List Bool) (s : State) : State :=
  if writePathOpen s = true ∧ bits ≠ [] then emit (.writeBits bits) s else s

/-- WRITE_CLOCK_TIMEOUT: the written field ends SHORT and is discarded, and its claim is released (R14, R41). -/
def execWriteClockTimeout (tail : WriteTail) (s : State) : Host.Outcome State Fault Refusal :=
  let s := passBits tail.bits (begin tail.dt s)
  match writing s with
  | none => .next s
  | some _ => .next (releaseClaim (endField s))

/-! ### Gates -/

/-- The field a served or service read sends (R29, R31): the image of the entry's slot as it stands, the held response,
the status frame built at MATCH, or zeros. -/
def servedField (o : Op) (s : State) : Field :=
  match o.kind with
  | .servedRead =>
    match (entryOf s o.addr).bind fun e => e.body.slot? with
    | some k => readSlot s k
    | none => zeroField s.straps
  | _ =>
    if o.addr.head = 0 ∧ o.addr.sec = 0 then s.svc.heldResponse
    else if o.addr.head = 0 ∧ o.addr.sec = 1 then o.built.getD (zeroField s.straps)
    else zeroField s.straps

/-- The operation moves to the transferring phase (R16). -/
def transfer (o : Op) (s : State) : State := { s with ctl.op := some { o with phase := .transferring } }

/-- Is this operation a read? (R16) -/
def OpKind.isRead : OpKind → Bool
  | .servedRead => true
  | .serviceRead => true
  | .liveRead => true
  | .servedWrite => false
  | .serviceWrite => false
  | .liveWrite => false
  | .withheld => false

/-- READ_GATE (R16, R29, R31, R32): accepted only awaiting the gate of a read. -/
def execReadGate (dt : Nat) (s : State) : Host.Outcome State Fault Refusal :=
  let s := begin dt s
  match s.ctl.op with
  | none => .next s
  | some o =>
    if o.phase = .awaitingGate ∧ o.kind.isRead = true then
      match o.kind with
      | .liveRead => .next (emit (.readGate true) { transfer o s with drv.readGate := true })
      | _ => .next (emit (.serve (servedField o s) (servedRate s)) (transfer o s))
    else .next s

/-- READ_GATE_FALLS: the transfer and the operation end (R16, R29, R32). -/
def execReadGateFalls (dt : Nat) (s : State) : Host.Outcome State Fault Refusal :=
  let s := begin dt s
  match s.ctl.op with
  | none => .next s
  | some o =>
    if o.phase = .transferring ∧ o.kind.isRead = true then .next (settle (endOperation s)) else .next s

/-- WRITE_GATE (R16, R30, R31, R34, R41): on a served write the map claims what the write needs, or refuses it. -/
def execWriteGate (dt : Nat) (s : State) : Host.Outcome State Fault Refusal :=
  let s := begin dt s
  match s.ctl.op with
  | none => .next s
  | some o =>
    if o.phase = .awaitingGate ∧ o.gateRefused = false then
      match o.kind with
      | .servedWrite =>
        match claimFor s o.addr with
        | some c => .next (transfer o { s with map.claim := some c })
        | none => .next { s with ctl.shownFault := true, ctl.op := some { o with gateRefused := true } }
      | .serviceWrite => .next (transfer o s)
      | .liveWrite => .next (emit (.writeGate true) { transfer o s with drv.writeGate := true })
      | .servedRead => .next s
      | .serviceRead => .next s
      | .liveRead => .next s
      | .withheld => .next s
    else .next s

/-- WRITE_GATE_FALLS: the operation ends; a field that has not ended full ends SHORT and its claim is released (R14, R30,
R41). -/
def execWriteGateFalls (tail : WriteTail) (s : State) : Host.Outcome State Fault Refusal :=
  let s := passBits tail.bits (begin tail.dt s)
  match s.ctl.op with
  | none => .next s
  | some o =>
    if o.kind.isRead = false ∧ (o.phase = .transferring ∨ o.gateRefused = true) then
      .next (settle (endOperation s))
    else .next s

/-! ### Served transfers and generated MATCH -/

/-- SERVED_TRANSFER_ENDS: the last bit has been sent and the read clock stops (R29). -/
def execServedTransferEnds (dt : Nat) (s : State) : Host.Outcome State Fault Refusal :=
  let s := begin dt s
  match s.ctl.op with
  | none => .next s
  | some o =>
    if o.phase = .transferring ∧ o.fieldEnded = false ∧ (o.kind = .servedRead ∨ o.kind = .serviceRead) then
      .next (emit .serveEnds (endField s))
    else .next s

/-- What the generated MATCH of an operation brings: the phase, and the status frame of a read of service sector 1 (R16,
R183). -/
def matched (o : Op) (s : State) : State :=
  let built :=
    if o.kind = .serviceRead ∧ o.addr.head = 0 ∧ o.addr.sec = 1 then some (statusFrame s) else none
  emit .matchPulse
    { s with ctl.op := some { o with phase := .awaitingGate, matchDue := none, built := built } }

/-- GENERATED_MATCH: 1 ms after a served or service target, or after withholding ended RECOVERED (R128, R37). -/
def execGeneratedMatch (s : State) : Host.Outcome State Fault Refusal :=
  match s.ctl.op with
  | none => .next (beginNow s)
  | some o =>
    match o.matchDue with
    | none => .next (beginNow s)
    | some t => .next (matched o (beginAt t s))

end Sys2Proof.Machine
end

