-- ==== Sys2Proof/Machine/Timers.lean ====
section
/-!
DEFINITION. The device's own timers and the vote's completion: view settle (R19), quiet interval (R131), withhold limit
(R37), vote (R71, R114), duty limiter (R142 to R144) and generated INDEX (R128); and power-up (R201). A timer that is not
armed has no expiry, so its command changes nothing (log 2).
-/

namespace Sys2Proof.Machine

/-- VIEW_SETTLE: shown ON CYLINDER becomes true (R19). -/
def execViewSettle (s : State) : Host.Outcome State Fault Refusal :=
  match s.ctl.settleDue with
  | none => .next (beginNow s)
  | some t => .next { beginAt t s with ctl.settleDue := none, ctl.shownOnCylinder := true }

/-- A controller use of the drive is in flight: a live operation or a withholding, a relayed step, or an order held behind
a step (R131). -/
def useInFlight (s : State) : Bool :=
  liveOp s || s.ctl.withhold.isSome || !s.drv.heldOrders.isEmpty ||
    match s.drv.step with
    | some st => st.move.isNone
    | none => false

/-- The quiet interval has passed: with no controller use in flight the holder becomes NONE, at the end of a step still in
flight (R131, log 9), also when the drive was to pass to the controller at that end (R132); a use in flight starts the
interval again at its own end. -/
def quietPasses (s : State) : State :=
  let s := { s with drv.quietDue := none }
  if useInFlight s then s
  else if s.drv.holder = .controller ∨ s.drv.passOn = .toController then
    if s.drv.step.isSome then { s with drv.passOn := .toNobody } else setHolder .nobody { s with drv.passOn := .stays }
  else s

/-- QUIET_INTERVAL (R131). -/
def execQuietInterval (s : State) : Host.Outcome State Fault Refusal :=
  match s.drv.quietDue with
  | none => .next (beginNow s)
  | some t => .next (settle (quietPasses (beginAt t s)))

/-- The withhold limit passes (R37, R76): a capture in flight for the job is let complete first. What ends the withholding
before that capture's end is the end reported, by the model's choice (log 43). -/
def limitPasses (s : State) : State :=
  if s.drv.capture.isSome then
    { s with ctl.withhold := s.ctl.withhold.map fun w => { w with limitPassed := true } }
  else endWithholdDemoting .limit s

/-- WITHHOLD_LIMIT (R37). -/
def execWithholdLimit (s : State) : Host.Outcome State Fault Refusal :=
  match s.ctl.withhold with
  | none => .next (beginNow s)
  | some w =>
    if w.limitPassed then .next (beginNow s)
    else .next (settle (limitPasses (beginAt (w.begun + w.limit * Config.ms) s)))

/-! ### The vote -/

/-- A vote that was not accepted: the working rung's on-failure action (R71, R99). -/
def voteFails (a : Addr) (s : State) : State :=
  match s.seq.workingRung with
  | none => s
  | some r => failRung a r.onFailure s

/-- The outcome of a vote reaches its job (R71): weak count and vote result are recorded, then the job ends RECOVERED or
its rung fails. -/
def takeOutcome (v : Vote) (s : State) : State :=
  let ends := voteEnd s.straps v
  let s := updateJob v.owner
    (fun j => { j with lastWeak := some v.weakCount, lastAmbiguous := decide (ends = .ambiguous) }) s
  let s := { s with seq.lastVote := some v.image }
  match ends with
  | .acceptedVote => endRecovered v.owner .vote v.image s
  | .acceptedSearch image flips => endRecovered v.owner (.search flips) image s
  | .ambiguous => voteFails v.owner s
  | .tooWeak => voteFails v.owner s
  | .failed => voteFails v.owner s

/-- VOTE_COMPLETES (R114, R116): a marked vote is discarded; a waiting vote is computed next (R105). -/
def execVoteCompletes (dt : Nat) (s : State) : Host.Outcome State Fault Refusal :=
  let s := begin dt s
  match s.eng.inFlight with
  | none => .next s
  | some v =>
    let s := nextVote s
    if v.discard then .next s
    else
      match headJob s with
      | none => .next s
      | some j =>
        if j.addr = v.owner ∧ j.state = .voting then .next (settle (takeOutcome v s)) else .next s

/-! ### The duty limiter -/

/-- WORK_DURATION_REACHED: the work counter reaches the work duration and rest is due (R142, R143). -/
def execWorkDurationReached (s : State) : Host.Outcome State Fault Refusal :=
  if limiterOn s.svc.params && !s.drv.resting && s.drv.holder.isDevice && !isPassive s then
    .next (settle { advance (workDuration s - s.drv.work) s with out := [] })
  else .next (beginNow s)

/-- REST_ENDS: the rest duration has passed since the rest began (R144). -/
def execRestEnds (s : State) : Host.Outcome State Fault Refusal :=
  if s.drv.resting then .next (settle (endRest (beginAt (s.drv.restStart + restDuration s) s)))
  else .next (beginNow s)

/-- IDLE_TIMER: the idle timer reaches the rest duration and the work counter returns to 0 (R142). -/
def execIdleTimer (s : State) : Host.Outcome State Fault Refusal :=
  if limiterOn s.svc.params && !s.drv.resting && !s.drv.holder.isDevice then
    .next { advance (restDuration s - s.drv.idle) s with out := [] }
  else .next (beginNow s)

/-! ### The mark generator and power-up -/

/-- GENERATED_INDEX: a scheduled INDEX while the drive is LOST (R128). -/
def execGeneratedIndex (s : State) : Host.Outcome State Fault Refusal :=
  match s.drv.genNext with
  | none => .next (beginNow s)
  | some t => .next (emit .index { beginAt t s with drv.genNext := some (t + s.drv.genPeriod) })

/-- POWER_UP: power is applied or the reset line asserted (R201). Straps and drive levels are read; the waiting commands
are the model's and stay (log 29). -/
def execPowerUp (width : WordWidth) (words : SectorWords) (offset : Fin 4) (bitRate : Nat)
    (ready onCylinder positionError fault protect : Bool) (s : State) : Host.Outcome State Fault Refusal :=
  .next (State.poweredUp ⟨width, words, offset, bitRate⟩ ⟨ready, onCylinder, positionError, fault, protect⟩ s.pending)

end Sys2Proof.Machine
end

