-- ==== Sys2Proof/Machine/Dispatch.lean ====
section
/-! DEFINITION. One arm for each command: a direct call of its meaning. -/

namespace Sys2Proof.Machine

def exec (i : Instr) (s : State) : Host.Outcome State Fault Refusal :=
  match i with
  | .powerUp width words offset bitRate ready onCylinder positionError fault protect => Sys2Proof.Machine.execPowerUp width words offset bitRate ready onCylinder positionError fault protect s
  | .position dt cyl => Sys2Proof.Machine.execPosition dt cyl s
  | .head dt h => Sys2Proof.Machine.execHead dt h s
  | .returnOrder dt => Sys2Proof.Machine.execReturnOrder dt s
  | .margin dt strobe offset => Sys2Proof.Machine.execMargin dt strobe offset s
  | .targetRead dt sec => Sys2Proof.Machine.execTargetRead dt sec s
  | .targetWrite dt sec => Sys2Proof.Machine.execTargetWrite dt sec s
  | .clear dt => Sys2Proof.Machine.execClear dt s
  | .readGate dt => Sys2Proof.Machine.execReadGate dt s
  | .readGateFalls dt => Sys2Proof.Machine.execReadGateFalls dt s
  | .writeGate dt => Sys2Proof.Machine.execWriteGate dt s
  | .writeGateFalls tail => Sys2Proof.Machine.execWriteGateFalls tail s
  | .writeFieldFull dt field => Sys2Proof.Machine.execWriteFieldFull dt field s
  | .writeClockTimeout tail => Sys2Proof.Machine.execWriteClockTimeout tail s
  | .commandFrameRefused dt field => Sys2Proof.Machine.execCommandFrameRefused dt field s
  | .setGeometry dt tag cyls heads secs => Sys2Proof.Machine.execSetGeometry dt tag cyls heads secs s
  | .setParameters dt tag mask withholdLimit quietInterval positionTimeout workCode restCode => Sys2Proof.Machine.execSetParameters dt tag mask withholdLimit quietInterval positionTimeout workCode restCode s
  | .loadZone dt tag index head low high ladder => Sys2Proof.Machine.execLoadZone dt tag index head low high ladder s
  | .clearZone dt tag index => Sys2Proof.Machine.execClearZone dt tag index s
  | .setLadderHeader dt tag ladder m l budget => Sys2Proof.Machine.execSetLadderHeader dt tag ladder m l budget s
  | .loadRung dt tag ladder index rung0 rung1 => Sys2Proof.Machine.execLoadRung dt tag ladder index rung0 rung1 s
  | .clearLadder dt tag ladder => Sys2Proof.Machine.execClearLadder dt tag ladder s
  | .setHead dt tag head mask threshold score => Sys2Proof.Machine.execSetHead dt tag head mask threshold score s
  | .startSweep dt tag base0 base1 limit0 limit1 first0 first1 stop0 stop1 => Sys2Proof.Machine.execStartSweep dt tag base0 base1 limit0 limit1 first0 first1 stop0 stop1 s
  | .setSweepStop dt tag stop0 stop1 => Sys2Proof.Machine.execSetSweepStop dt tag stop0 stop1 s
  | .abortSweep dt tag => Sys2Proof.Machine.execAbortSweep dt tag s
  | .queueSector dt tag addr0 addr1 => Sys2Proof.Machine.execQueueSector dt tag addr0 addr1 s
  | .releaseEntry dt tag addr0 addr1 => Sys2Proof.Machine.execReleaseEntry dt tag addr0 addr1 s
  | .importPage dt tag addr0 addr1 page units => Sys2Proof.Machine.execImportPage dt tag addr0 addr1 page units s
  | .exportPage dt tag addr0 addr1 page => Sys2Proof.Machine.execExportPage dt tag addr0 addr1 page s
  | .readMap dt tag addr0 addr1 => Sys2Proof.Machine.execReadMap dt tag addr0 addr1 s
  | .readQueue dt tag pos => Sys2Proof.Machine.execReadQueue dt tag pos s
  | .readHealth dt tag group => Sys2Proof.Machine.execReadHealth dt tag group s
  | .readLog dt tag pos => Sys2Proof.Machine.execReadLog dt tag pos s
  | .clearLog dt tag => Sys2Proof.Machine.execClearLog dt tag s
  | .readLadder dt tag ladder => Sys2Proof.Machine.execReadLadder dt tag ladder s
  | .readZones dt tag => Sys2Proof.Machine.execReadZones dt tag s
  | .activate dt tag => Sys2Proof.Machine.execActivate dt tag s
  | .captiveOn dt tag => Sys2Proof.Machine.execCaptiveOn dt tag s
  | .captiveOff dt tag => Sys2Proof.Machine.execCaptiveOff dt tag s
  | .passivate dt tag => Sys2Proof.Machine.execPassivate dt tag s
  | .driveMatch dt => Sys2Proof.Machine.execDriveMatch dt s
  | .captureFull dt field bitRate => Sys2Proof.Machine.execCaptureFull dt field bitRate s
  | .readClockTimeout dt => Sys2Proof.Machine.execReadClockTimeout dt s
  | .servedTransferEnds dt => Sys2Proof.Machine.execServedTransferEnds dt s
  | .driveIndex dt => Sys2Proof.Machine.execDriveIndex dt s
  | .driveReadyFalls dt => Sys2Proof.Machine.execDriveReadyFalls dt s
  | .driveReadyRises dt => Sys2Proof.Machine.execDriveReadyRises dt s
  | .driveFaultRises dt => Sys2Proof.Machine.execDriveFaultRises dt s
  | .driveFaultFalls dt => Sys2Proof.Machine.execDriveFaultFalls dt s
  | .positioningStepCompletes dt => Sys2Proof.Machine.execPositioningStepCompletes dt s
  | .positioningStepFails dt => Sys2Proof.Machine.execPositioningStepFails dt s
  | .positionTimeout => Sys2Proof.Machine.execPositionTimeout s
  | .marginUnknownSettle => Sys2Proof.Machine.execMarginUnknownSettle s
  | .faultEpisodeTimeout => Sys2Proof.Machine.execFaultEpisodeTimeout s
  | .indexWatchdog => Sys2Proof.Machine.execIndexWatchdog s
  | .generatedIndex => Sys2Proof.Machine.execGeneratedIndex s
  | .generatedMatch => Sys2Proof.Machine.execGeneratedMatch s
  | .viewSettle => Sys2Proof.Machine.execViewSettle s
  | .quietInterval => Sys2Proof.Machine.execQuietInterval s
  | .withholdLimit => Sys2Proof.Machine.execWithholdLimit s
  | .voteCompletes dt => Sys2Proof.Machine.execVoteCompletes dt s
  | .workDurationReached => Sys2Proof.Machine.execWorkDurationReached s
  | .restEnds => Sys2Proof.Machine.execRestEnds s
  | .idleTimer => Sys2Proof.Machine.execIdleTimer s
  | .driveProtectChanges dt level => Sys2Proof.Machine.execDriveProtectChanges dt level s

end Sys2Proof.Machine
end

