-- ==== Sys2Proof/WellFormed.lean ====
section
/-!
DEFINITION. Which commands the cables can carry: the values of the order arguments (R15), units of 12 bits (R177),
fields of a length and width some strap setting gives (R6), and rates above 0.
-/

namespace Sys2Proof

/-- A value one unit can carry (R177). -/
def isUnit (u : Nat) : Bool := decide (u < Config.unitRange)

/-- A field some strap setting allows: 65, 129 or 257 words, none wider than 18 bits (R1, R6). -/
def isField (f : List Nat) : Bool :=
  decide (f.length = 65 ∨ f.length = 129 ∨ f.length = 257) && f.all (fun w => decide (w < 2 ^ 18))

/-- The body of a frame: W−8 units for some W (R177). -/
def isBody (us : List Nat) : Bool :=
  decide (us.length = 56 ∨ us.length = 120 ∨ us.length = 248) && us.all isUnit

/-- A command the cables can carry. -/
def Instr.wf : Instr → Bool
  | .powerUp _ _ _ rate _ _ _ _ _ => decide (0 < rate)
  | .position _ c => decide (c < 1024)
  | .head _ h => decide (h < 16)
  | .returnOrder _ => true
  | .margin _ _ _ => true
  | .targetRead _ s => decide (s < 64)
  | .targetWrite _ s => decide (s < 64)
  | .clear _ => true
  | .readGate _ => true
  | .readGateFalls _ => true
  | .writeGate _ => true
  | .writeGateFalls _ => true
  | .writeFieldFull _ f => isField f
  | .writeClockTimeout _ => true
  | .commandFrameRefused _ f => isField f
  | .setGeometry _ t a b c => [t, a, b, c].all isUnit
  | .setParameters _ t a b c d e f => [t, a, b, c, d, e, f].all isUnit
  | .loadZone _ t a b c d e => [t, a, b, c, d, e].all isUnit
  | .clearZone _ t a => [t, a].all isUnit
  | .setLadderHeader _ t a b c d => [t, a, b, c, d].all isUnit
  | .loadRung _ t a b c d => [t, a, b, c, d].all isUnit
  | .clearLadder _ t a => [t, a].all isUnit
  | .setHead _ t a b c d => [t, a, b, c, d].all isUnit
  | .startSweep _ t a b c d e f g h => [t, a, b, c, d, e, f, g, h].all isUnit
  | .setSweepStop _ t a b => [t, a, b].all isUnit
  | .abortSweep _ t => isUnit t
  | .queueSector _ t a b => [t, a, b].all isUnit
  | .releaseEntry _ t a b => [t, a, b].all isUnit
  | .importPage _ t a b p us => [t, a, b, p].all isUnit && isBody us
  | .exportPage _ t a b p => [t, a, b, p].all isUnit
  | .readMap _ t a b => [t, a, b].all isUnit
  | .readQueue _ t a => [t, a].all isUnit
  | .readHealth _ t a => [t, a].all isUnit
  | .readLog _ t a => [t, a].all isUnit
  | .clearLog _ t => isUnit t
  | .readLadder _ t a => [t, a].all isUnit
  | .readZones _ t => isUnit t
  | .activate _ t => isUnit t
  | .captiveOn _ t => isUnit t
  | .captiveOff _ t => isUnit t
  | .passivate _ t => isUnit t
  | .driveMatch _ => true
  | .captureFull _ f rate => isField f && decide (0 < rate)
  | .readClockTimeout _ => true
  | .servedTransferEnds _ => true
  | .driveIndex _ => true
  | .driveReadyFalls _ => true
  | .driveReadyRises _ => true
  | .driveFaultRises _ => true
  | .driveFaultFalls _ => true
  | .positioningStepCompletes _ => true
  | .positioningStepFails _ => true
  | .positionTimeout => true
  | .marginUnknownSettle => true
  | .faultEpisodeTimeout => true
  | .indexWatchdog => true
  | .generatedIndex => true
  | .generatedMatch => true
  | .viewSettle => true
  | .quietInterval => true
  | .withholdLimit => true
  | .voteCompletes _ => true
  | .workDurationReached => true
  | .restEnds => true
  | .idleTimer => true
  | .driveProtectChanges _ _ => true

end Sys2Proof
end

