-- ==== Sys2Proof/Safety.lean ====
section
/-!
DEFINITION. What a safe run of the block is, in the terms the statements use: the invariants the manual states of the
log (R172), the head records (R167), the map (R38), the store (R40), the queue (R60), the bounded lists (R35, R68), and
what never reaches the drive (R17). No command faults or is refused, so every run goes on; what has to be kept is these.
-/

namespace Sys2Proof.Machine

/-- Nothing is left that the device does of its own accord at once (log 31). -/
abbrev NothingDue (s : State) : Prop := nextAct s = none

/-- The controller has nothing under way and the device nothing due at once. -/
abbrev Unoccupied (s : State) : Prop := s.ctl.op = none ∧ s.ctl.withhold = none ∧ NothingDue s

/-- The controller has nothing under way and nothing is in flight on the drive, which no device party holds. -/
abbrev DriveFree (s : State) : Prop :=
  s.ctl.op = none ∧ s.ctl.withhold = none ∧ s.drv.step = none ∧ s.drv.travel = none ∧ s.drv.capture = none ∧
    s.drv.episode = none ∧ s.drv.heldOrders = [] ∧ s.drv.passOn = .stays ∧ s.drv.holder.isDevice = false ∧
    restDue s = false

/-- The controller holds the drive with nothing in flight on it but perhaps its own capture, and nothing is due. -/
abbrev ControllerHas (s : State) : Prop :=
  s.ctl.withhold = none ∧ s.drv.step = none ∧ s.drv.travel = none ∧ s.drv.episode = none ∧ s.drv.heldOrders = [] ∧
    s.drv.passOn = .stays ∧ s.drv.holder = .controller ∧ restDue s = false

/-- The device has no work of its own to begin: PASSIVE mode, or an empty queue and an IDLE sweep. -/
abbrev DeviceIdle (s : State) : Prop := isPassive s = true ∨ (s.seq.queue = [] ∧ s.sweep.state = .idle)

/-- The state after a command frame is answered: the response, and the written field's end (R178, R182). The payload is
the header's five units, then the body. -/
abbrev answered (tag code : Nat) (payload : List Nat) (s : State) : State :=
  { s with
    svc.heldResponse := frameField s.straps ([0x3AC, tag, code] ++ payload)
    ctl.op := s.ctl.op.map fun o => { o with fieldEnded := true } }

/-- The state after a command frame is refused: a payload of zeros (R181, R182). -/
abbrev refusedWith (tag code : Nat) (s : State) : State := answered tag code [0, 0, 0, 0, 0] s

/-- An incident taken into a log at a state's moment, with its recent orders (R172, R173). -/
abbrev loggedIn (k : IncidentKind) (s : State) (l : IncidentLog) : IncidentLog :=
  { positions := l.positions.set (l.index % 8) (some ⟨k, min (s.clock / 1000000) 16777215, s.ctl.recentOrders⟩)
    index := l.index % 8 + 1
    held := min (l.held + 1) 8
    lifetime := min (l.lifetime + 1) 65535 }

/-- What a LOST end of a job does to the map, the log and its head (R79): the entry takes the lowest free slot with the
best image or zeros (R47), the job's incident is logged with its counts, and the head, with record `r` before, loses 24
(R166) and is judged worn after it (R167). -/
abbrev lostAs (kind : LostKind) (j : Job) (r : HeadRecord) (image : Option Field) (s : State) : State :=
  let score := r.score - 24
  let worn := if score ≤ r.threshold then true else if r.threshold + 16 ≤ score then false else r.worn
  let log := loggedIn (.jobLost kind j.addr j.ladder j.rungIndex j.readsSpent j.lastWeak) s s.log
  { s with
    map.entries := s.map.entries.map fun x =>
      if x.addr = j.addr then { x with body := .settled .lost j.readsSpent j.lastWeak (freeSlot s) } else x
    map.store := putSlot (freeSlot s) (packImage s.straps.bits (image.getD (zeroField s.straps))) s.map.store
    heads := s.heads.set j.addr.head { r with score := score, losses := min (r.losses + 1) 65535, worn := worn }
    log := if worn && !r.worn then loggedIn (.headWorn j.addr.head) s log else log }

/-- A withholding ended, its record emptied and the report replaced (R37, R184); whole milliseconds by the model's choice
(log 48). -/
abbrev reported (k : EndKind) (w : Withhold) (s : State) : State :=
  { s with
    ctl.withhold := none
    ctl.report := some ⟨w.addr, k, min ((s.clock - w.begun) / 1000) 4095⟩ }

/-- A served read of a sector that awaits its generated MATCH, 1 ms later (R29, R37). -/
abbrev servedNext (a : Addr) (s : State) : State :=
  { s with ctl.op := some ⟨.servedRead, a, .awaitingMatch, some (s.clock + 1000), false, false, none⟩ }

/-- A live pass on a drive that agrees with the view: the controller holds it, and the target is issued at once (R32, R37,
R122); a FAULT raised already is shown, by the model's choice (log 37). -/
abbrev livePass (a : Addr) (s : State) : State :=
  { s with
    ctl.op := some ⟨.liveRead, a, .awaitingMatch, none, false, false, none⟩
    ctl.shownFault := s.ctl.shownFault || s.drv.lines.fault
    drv.holder := .controller
    drv.quietDue := none
    drv.travel := none
    drv.capture := some ⟨.live, a, false, 0⟩
    out := s.out ++ [.order (.targetRead a.sec)] }

/-- The drive stands where the view does, with no POSITION ERROR: a re-seat issues no order (R122). -/
abbrev AtView (s : State) : Prop :=
  s.drv.record = ⟨some s.ctl.cyl, some s.ctl.head, some s.ctl.strobe, some s.ctl.offset⟩ ∧
    s.drv.lines.positionError = false

/-- The incident log (R172): eight positions, at most 8 held and never more than the lifetime count, which saturates at
65,535; the positions filled are the first ones, and all of them once 8 are held; the index names the newest. -/
def LogOk (l : IncidentLog) : Prop :=
  l.positions.length = 8 ∧ l.held ≤ 8 ∧ l.held ≤ l.lifetime ∧ l.lifetime ≤ 65535 ∧
    (l.held < 8 → l.index = l.held) ∧ (l.held = 8 → 1 ≤ l.index ∧ l.index ≤ 8) ∧
    ∀ k < 8, (l.positions.getD k none).isSome = decide (k < l.held)

/-- A head record (R162, R167): its ranges, worn at or below the threshold, not worn at threshold + 16 or above. -/
def HeadOk (r : HeadRecord) : Prop :=
  r.score ≤ 200 ∧ r.threshold ≤ 200 ∧ r.cleanReads ≤ 65535 ∧ r.recoveries ≤ 65535 ∧ r.losses ≤ 65535 ∧
    (r.score ≤ r.threshold → r.worn = true) ∧ (r.threshold + 16 ≤ r.score → r.worn = false)

/-- The sixteen head records (R162). -/
def HeadsOk (s : State) : Prop := s.heads.length = 16 ∧ ∀ r ∈ s.heads, HeadOk r

/-- The map's order: no two entries for one address, ascending addresses (R38). -/
def MapOk (s : State) : Prop := s.map.entries.Pairwise fun a b => a.addr.lt b.addr = true

/-- The queue (R60): at most 32 jobs, no two for one sector, every FOREGROUND job before every BACKGROUND one. -/
def QueueOk (s : State) : Prop :=
  s.seq.queue.length ≤ 32 ∧ (s.seq.queue.map Job.addr).Nodup ∧
    s.seq.queue.Pairwise fun a b => a.cls = .background → b.cls = .background

/-- Every PENDING entry has its job, and every job refers to a PENDING entry (R60). -/
def JobsMatch (s : State) : Prop :=
  ∀ a : Addr, (∃ j ∈ s.seq.queue, j.addr = a) ↔ ∃ e ∈ s.map.entries, e.addr = a ∧ e.body = .pending

/-- The map's room: at most 1,024 entries, counting a claimed one, and slots below 1,024, none named twice by entries and
claim together (R38, R40, R41). -/
def RoomOk (s : State) : Prop :=
  s.map.entries.length + entriesClaimed s ≤ 1024 ∧ (slotsInUse s ++ slotsClaimed s).Nodup ∧
    ∀ k ∈ slotsInUse s ++ slotsClaimed s, k < 1024

/-- The claim (R41, R43): it stands exactly while a served write of its sector is in transfer, and it holds an entry and a
slot for a sector without an entry, a slot for a PENDING one, nothing for one that has its slot. -/
def ClaimOk (s : State) : Prop :=
  let inTransfer := fun o : Op => o.kind = .servedWrite ∧ o.phase = .transferring ∧ o.fieldEnded = false
  match s.map.claim with
  | none => ∀ o, s.ctl.op = some o → ¬inTransfer o
  | some c =>
    (∃ o, s.ctl.op = some o ∧ inTransfer o ∧ o.addr = c.addr) ∧
      match entryOf s c.addr with
      | none => c.entry = true ∧ c.slot.isSome = true
      | some e => c.entry = false ∧ (c.slot.isSome = true ↔ e.body = .pending)

/-- The controller's operation agrees with what stands for it: a withholding is a withheld operation (R36), a generated
MATCH is due to a served or service operation that awaits it (R128), a field has ended only in a transfer (R14), a WRITE
GATE is refused to a served write that awaits it alone (R30), a withheld operation comes to no gate (R16), a re-seat is
made for the operation that awaits the drive (R122). -/
def OperationOk (s : State) : Prop :=
  (s.ctl.withhold.isSome = true ↔ s.ctl.op.map Op.kind = some .withheld) ∧
    (∀ o, s.ctl.op = some o → o.matchDue.isSome = true →
      o.phase = .awaitingMatch ∧ o.kind ≠ .liveRead ∧ o.kind ≠ .liveWrite ∧ o.kind ≠ .withheld) ∧
    (∀ o, s.ctl.op = some o →
      (o.fieldEnded = true → o.phase = .transferring) ∧
        (o.gateRefused = true → o.kind = .servedWrite ∧ o.phase = .awaitingGate) ∧
        (o.kind = .withheld → o.phase = .awaitingDrive ∨ o.phase = .awaitingMatch)) ∧
    ∀ t, s.drv.travel = some t → (t.purpose = .reseatLive ∨ t.purpose = .reseatWithhold) →
      ∃ o, s.ctl.op = some o ∧ o.phase = .awaitingDrive ∧
        (t.purpose = .reseatLive → o.kind = .liveRead ∨ o.kind = .liveWrite) ∧
        (t.purpose = .reseatWithhold → o.kind = .withheld)

/-- The lists with a stated bound: 4 recent orders (R35), 7 copies (R68). -/
def ListsOk (s : State) : Prop := s.ctl.recentOrders.length ≤ 4 ∧ s.seq.copies.length ≤ 7

/-- Outside PASSIVE mode no live write stands, and no target write waits to be relayed (R17, R34). -/
def NoWriteUnderWay (s : State) : Prop :=
  (s.svc.mode ≠ .passive → ∀ o, s.ctl.op = some o → o.kind ≠ .liveWrite) ∧
    ∀ o ∈ s.drv.heldOrders, ∀ k, o ≠ .targetWrite k

/-- Nothing in what a command drove writes to the drive (R17). -/
def WritesNothing (out : List Signal) : Prop :=
  ∀ x ∈ out, x ≠ .writeGate true ∧ (∀ f, x ≠ .writeData f) ∧ (∀ f, x ≠ .writeBits f) ∧ ∀ k, x ≠ .order (.targetWrite k)

/-- Is a command POWER_UP? -/
def isPowerUp : Instr → Bool
  | .powerUp _ _ _ _ _ _ _ _ _ => true
  | _ => false

/-- The order a command strobes, with its dt (R15): the seven rows of orders. -/
def orderOf : Instr → Option (Nat × Order)
  | .position dt c => some (dt, .position c)
  | .head dt h => some (dt, .head h)
  | .returnOrder dt => some (dt, .ret)
  | .margin dt st off => some (dt, .margin st off)
  | .targetRead dt k => some (dt, .targetRead k)
  | .targetWrite dt k => some (dt, .targetWrite k)
  | .clear dt => some (dt, .clear)
  | _ => none

/-- The commands that carry a field written by the controller (R14, R179). -/
def carriesField : Instr → Bool
  | .writeFieldFull _ _ => true
  | .commandFrameRefused _ _ => true
  | _ => false

/-- Does an IMPORT PAGE carry a body of W−8 units? Every other command does trivially (R177). -/
def bodyFits (st : Straps) : Instr → Bool
  | .importPage _ _ _ _ _ us => decide (us.length = bodyUnits st)
  | _ => true

/-- A safe run: a list of commands, none of which ends in a fault or a refusal. -/
def SafeRun : List Instr → State → Prop
  | [], _ => True
  | i :: is, s => ∃ t, exec i s = .next t ∧ SafeRun is t

end Sys2Proof.Machine
end

