-- ==== Sys2Proof/Certificates/Slice0/Obligations.lean ====
section
/-!
DEFINITION. The statements for the provers. `b` is throughout the state a command begins in: `begin dt s`, the state
before it with its time passed and nothing driven (log 1, log 6). An equation `exec c s = .next {b with …}` says what the
command changes and that it changes nothing else.
-/

open Sys2Proof Sys2Proof.Machine

/-! ### The queue of commands and power-up -/

/-- A step carries out the command at the front of the queue, on the state with the queue's rest. -/
def Obligations.StepRunsFrontCommand : Prop :=
  ∀ (c : Instr) (rest : List Instr) (s : State),
    step { s with pending := c :: rest } = exec c { s with pending := rest }

/-- POWER_UP, from any state: what each block holds afterwards (R201 and the rules it names). The straps and the drive's
levels are the operands. That the queue of commands stays is the model's choice (log 29). -/
def Obligations.PowerUpValues : Prop :=
  ∀ (w : WordWidth) (n : SectorWords) (off : Fin 4) (rate : Nat) (rd oc pe fl pr : Bool) (s : State),
    ∃ t, exec (.powerUp w n off rate rd oc pe fl pr) s = .next t ∧
      t.straps = ⟨w, n, off, rate⟩ ∧ t.drv.lines = ⟨rd, oc, pe, fl, pr⟩ ∧ t.clock = 0 ∧ t.pending = s.pending ∧
      t.svc.mode = .passive ∧ t.svc.geometry = none ∧ t.svc.params = ⟨400, 200, 600, 0, 0⟩ ∧
      t.svc.heldResponse = frameField t.straps [0x3AC, 0, 10] ∧
      t.ctl.cyl = 0 ∧ t.ctl.head = 0 ∧ t.ctl.strobe = .nominal ∧ t.ctl.offset = .centre ∧
      t.ctl.shownOnCylinder = false ∧ t.ctl.shownPositionError = false ∧ t.ctl.shownFault = false ∧
      t.ctl.settleDue = none ∧ t.ctl.op = none ∧ t.ctl.recentOrders = [] ∧ t.ctl.withhold = none ∧
      t.ctl.report = none ∧ t.ctl.servedRate = none ∧
      t.map.entries = [] ∧ t.map.store = [] ∧ t.map.claim = none ∧ t.map.staging = none ∧
      freeEntries t = 1024 ∧ freeSlots t = 1024 ∧
      t.seq.queue = [] ∧ t.seq.copies = [] ∧ t.seq.lastVote = none ∧ t.seq.workingRung = none ∧
      t.eng.inFlight = none ∧ t.eng.waiting = none ∧
      (∀ k < 8, (ladderOf t k).m = 2 ∧ (ladderOf t k).l = 6 ∧ (ladderOf t k).budget = 40) ∧
      (ladderOf t 0).rungs =
        [{ strobe := .nominal, offset := .centre, reads := 3,
           restoreFirst := false, resetCopies := false, voteAfter := true, onFailure := .cont },
         { strobe := .early, offset := .centre, reads := 2,
           restoreFirst := false, resetCopies := false, voteAfter := true, onFailure := .cont },
         { strobe := .late, offset := .centre, reads := 2,
           restoreFirst := false, resetCopies := false, voteAfter := true, onFailure := .cont },
         { strobe := .nominal, offset := .outward, reads := 2,
           restoreFirst := false, resetCopies := true, voteAfter := true, onFailure := .cont },
         { strobe := .nominal, offset := .inward, reads := 2,
           restoreFirst := false, resetCopies := true, voteAfter := true, onFailure := .cont },
         { strobe := .nominal, offset := .centre, reads := 3,
           restoreFirst := true, resetCopies := true, voteAfter := true, onFailure := .stop }] ∧
      (∀ k, 1 ≤ k → k < 8 → (ladderOf t k).rungs = []) ∧ t.tables.zones = List.replicate 16 none ∧
      t.drv.record = ⟨none, none, none, none⟩ ∧ t.drv.condition = .lost ∧ t.drv.period = none ∧
      t.drv.lastIndex = none ∧ t.drv.lastRelayed = none ∧ t.drv.indexCount = 0 ∧
      t.drv.genNext = some 25000 ∧ t.drv.genPeriod = 25000 ∧
      t.drv.holder = .nobody ∧ t.drv.step = none ∧ t.drv.travel = none ∧ t.drv.episode = none ∧
      t.drv.quietDue = none ∧ t.drv.capture = none ∧ t.drv.work = 0 ∧ t.drv.idle = 0 ∧ t.drv.resting = false ∧
      t.sweep.state = .idle ∧ t.sweep.base = 0 ∧ t.sweep.limit = 0 ∧ t.sweep.next = 0 ∧ t.sweep.stop = 0 ∧
      t.sweep.cause = none ∧ t.sweep.refusalMet = false ∧
      t.sweep.tracksRead = 0 ∧ t.sweep.tracksSkipped = 0 ∧ t.sweep.failuresFound = 0 ∧
      t.heads = List.replicate 16
        { score := 100, threshold := 40, worn := false, cleanReads := 0, recoveries := 0, losses := 0 } ∧
      t.log = { positions := List.replicate 8 none, index := 0, held := 0, lifetime := 0 }

/-- The invariants of the statements below hold right after reset. -/
def Obligations.ResetMeetsInvariants : Prop :=
  LogOk State.reset.log ∧ HeadsOk State.reset ∧ MapOk State.reset ∧ QueueOk State.reset ∧ JobsMatch State.reset ∧
    RoomOk State.reset ∧ ClaimOk State.reset ∧ OperationOk State.reset ∧
    ListsOk State.reset ∧ NoWriteUnderWay State.reset ∧ Store.wf State.reset.map.store = true

/-! ### The check, the packed image and the vote -/

/-- R8, whole: how the folded sum is formed, when it is 0, its range, its remainder, that the order does not matter, and
that the plain sum alone fixes it. -/
def Obligations.FoldedSumRule : Prop :=
  ∀ (b : Nat) (ws : List Nat), 0 < b → (∀ w ∈ ws, w < 2 ^ b) →
    foldedSum b [] = 0 ∧
    (∀ w < 2 ^ b, foldedSum b (ws ++ [w]) =
      if foldedSum b ws + w ≥ 2 ^ b then foldedSum b ws + w - 2 ^ b + 1 else foldedSum b ws + w) ∧
    foldedSum b ws ≤ 2 ^ b - 1 ∧
    (foldedSum b ws = 0 ↔ ∀ w ∈ ws, w = 0) ∧
    foldedSum b ws % (2 ^ b - 1) = ws.sum % (2 ^ b - 1) ∧
    (∀ vs : List Nat, vs.Perm ws → foldedSum b vs = foldedSum b ws) ∧
    (∀ vs : List Nat, (∀ v ∈ vs, v < 2 ^ b) → vs.sum = ws.sum → foldedSum b vs = foldedSum b ws)

/-- When a field passes the check (R10), that a check word made by R9 makes it pass, and that a field which passes
fails with any one bit inverted. -/
def Obligations.CheckPassesExactly : Prop :=
  ∀ (b : Nat) (f : Field), 1 < b → (∀ w ∈ f, w < 2 ^ b) →
    (passes b f = true ↔ 0 < f.sum ∧ f.sum % (2 ^ b - 1) = 0) ∧
    passes b (f ++ [checkWord b f]) = true ∧
    (passes b f = true → ∀ p < f.length * b, passes b (flipBit b f p) = false)

/-- R11's four limit cases, for any word width of two bits or more and any number of data words. -/
def Obligations.CheckLimitCases : Prop :=
  ∀ b n : Nat, 1 < b →
    (checkWord b (List.replicate n 0) = 2 ^ b - 1 ∧
      foldedSum b (List.replicate n 0 ++ [2 ^ b - 1]) = 2 ^ b - 1 ∧
      passes b (List.replicate n 0 ++ [2 ^ b - 1]) = true) ∧
    (foldedSum b (List.replicate (n + 1) 0) = 0 ∧ passes b (List.replicate (n + 1) 0) = false) ∧
    (foldedSum b (List.replicate (n + 1) (2 ^ b - 1)) = 2 ^ b - 1 ∧
      passes b (List.replicate (n + 1) (2 ^ b - 1)) = true) ∧
    (∀ data : List Nat, foldedSum b data = 2 ^ b - 1 →
      checkWord b data = 0 ∧ foldedSum b (data ++ [0]) = 2 ^ b - 1 ∧ passes b (data ++ [0]) = true)

/-- An image packed into bytes (R7) has ⌈words × B / 8⌉ of them and unpacks to the same words. -/
def Obligations.PackedImageUnpacks : Prop :=
  ∀ (b : Nat) (f : Field), 0 < b → (∀ w ∈ f, w < 2 ^ b) →
    (packImage b f).length = (f.length * b + 7) / 8 ∧ unpackImage b f.length (packImage b f) = f

/-- A slot written with a field of the straps' format reads it back, every other slot reads as before, and the store
keeps its form (R40). -/
def Obligations.SlotReadsBack : Prop :=
  ∀ (k : Nat) (f : Field) (s : State), Store.wf s.map.store = true →
    f.length = s.straps.data + 1 → (∀ w ∈ f, w < 2 ^ s.straps.bits) →
    readSlot (writeSlot k f s) k = f ∧ (∀ j, j ≠ k → readSlot (writeSlot k f s) j = readSlot s j) ∧
      Store.wf (writeSlot k f s).map.store = true

/-- The voted image (R107): at each field position the majority of the copies' bits, and on a tie the newest copy's. -/
def Obligations.VotedImageIsMajority : Prop :=
  ∀ (st : Straps) (owner : Addr) (inp : VoteInputs) (newest : Field) (p : Nat),
    inp.copies.getLast? = some newest → (∀ f ∈ inp.copies, f.length = st.data + 1) →
    p < (st.data + 1) * st.bits →
    let ones := inp.copies.countP fun f => bitAt st.bits f p
    let zeros := inp.copies.countP fun f => !bitAt st.bits f p
    bitAt st.bits (startVote st owner inp false).image p =
      if zeros < ones then true else if ones < zeros then false else bitAt st.bits newest p

/-- The weak positions (R108, R109): their count is the number of positions whose margin is below M, and the list,
ascending, holds them when they are 8 or fewer. -/
def Obligations.WeakBitsAreCounted : Prop :=
  ∀ (st : Straps) (owner : Addr) (inp : VoteInputs), (∀ f ∈ inp.copies, f.length = st.data + 1) →
    let weak := fun p : Nat =>
      let ones := inp.copies.countP fun f => bitAt st.bits f p
      let zeros := inp.copies.countP fun f => !bitAt st.bits f p
      decide (max ones zeros - min ones zeros < inp.m)
    let v := startVote st owner inp false
    v.weakCount = (List.range ((st.data + 1) * st.bits)).countP weak ∧
      (v.weakCount ≤ 8 → v.weakBits = (List.range ((st.data + 1) * st.bits)).filter weak)

/-- How a vote ends (R110, R111, R113): by combination 0, by the weak count, or by the number of combinations 1 to
2^w − 1 that pass. -/
def Obligations.VoteEndsByItsPasses : Prop :=
  ∀ (st : Straps) (owner : Addr) (inp : VoteInputs),
    let v := startVote st owner inp false
    let good := fun c : Nat => passes st.bits (combinationOf st.bits v.image v.weakBits c)
    let found := (List.range (2 ^ v.weakCount)).filter fun c => decide (0 < c) && good c
    (passes st.bits v.image = true → voteEnd st v = .acceptedVote) ∧
    (passes st.bits v.image = false →
      (v.weakCount = 0 → voteEnd st v = .failed) ∧
      (0 < v.weakCount → inp.l < v.weakCount → voteEnd st v = .tooWeak) ∧
      (0 < v.weakCount → v.weakCount ≤ inp.l →
        (found = [] → voteEnd st v = .failed) ∧
        (∀ c, found = [c] →
          voteEnd st v = .acceptedSearch (combinationOf st.bits v.image v.weakBits c) (flipsOf v.weakCount c)) ∧
        (2 ≤ found.length → voteEnd st v = .ambiguous)))

/-! ### Command frames -/

/-- The frame that carries a service command decodes to it: every operand at every value a unit can carry (R206). -/
def Obligations.FrameDecodesToItsCommand : Prop :=
  ∀ (st : Straps) (i : Instr) (us : List Nat), i.wf = true → bodyFits st i = true → encodeFrame i = some us →
    decodeFrame (padTo st.data us) = some (i.atTime 0)

/-- A field written to service sector 0 that carries a command's frame, check word made by R9, does exactly what the
command's own row does, whichever of the two rows of a full field brings it (R179; log 5). -/
def Obligations.WrittenFrameActsAsItsCommand : Prop :=
  ∀ (dt : Nat) (i : Instr) (us : List Nat) (s : State), i.wf = true → bodyFits s.straps i = true →
    encodeFrame i = some us → acceptsFrame s = true →
    exec (.writeFieldFull dt (frameField s.straps us)) s = exec (i.atTime dt) s ∧
    exec (.commandFrameRefused dt (frameField s.straps us)) s = exec (i.atTime dt) s

/-- A field that is no command (R179, steps 1 to 3): CHECK FAIL with tag 0, UNKNOWN with tag 0 for a wrong mark, UNKNOWN
with the tag echoed for a code outside 1 to 26; nothing but the held response changes, and the field has ended. That
two rows bring a full field to service sector 0 is the model's choice (log 5). -/
def Obligations.DamagedFrameIsRefused : Prop :=
  ∀ (dt : Nat) (field : List Nat) (s : State), acceptsFrame s = true →
    let b := begin dt s
    let f := takeField s.straps field
    let unit := fun k : Nat => f.getD k 0 % 4096
    let reply := fun (tag code : Nat) =>
      Host.Outcome.next (φ := Fault) (ρ := Refusal)
        { b with
          svc.heldResponse := frameField s.straps [0x3AC, tag, code]
          ctl.op := b.ctl.op.map fun o => { o with fieldEnded := true } }
    (passes s.straps.bits f = false →
      exec (.commandFrameRefused dt field) s = reply 0 7 ∧ exec (.writeFieldFull dt field) s = reply 0 7) ∧
    (passes s.straps.bits f = true → unit 0 ≠ 0xC3A →
      exec (.commandFrameRefused dt field) s = reply 0 8 ∧ exec (.writeFieldFull dt field) s = reply 0 8) ∧
    (passes s.straps.bits f = true → unit 0 = 0xC3A → (unit 1 = 0 ∨ 26 < unit 1) →
      exec (.commandFrameRefused dt field) s = reply (unit 2) 8 ∧
        exec (.writeFieldFull dt field) s = reply (unit 2) 8)

/-! ### Invariants and rules over every command -/

/-- Every step keeps the incident log's form (R172). -/
def Obligations.LogFormIsKept : Prop := ∀ s t : State, LogOk s.log → step s = .next t → LogOk t.log

/-- Every step keeps every head record in its ranges and its worn flag true to its score (R162, R167). -/
def Obligations.HeadRecordsAreKept : Prop := ∀ s t : State, HeadsOk s → step s = .next t → HeadsOk t

/-- Every step keeps the map in ascending address order, the queue in its two groups within its room, and each PENDING
entry matched with its one job (R38, R60). It also keeps the map within its 1,024 entries and no slot named twice
(R38, R40, R41), in every state whose claim and operation agree, which it keeps as well. -/
def Obligations.MapAndQueueAreKept : Prop :=
  ∀ s t : State, MapOk s → QueueOk s → JobsMatch s → step s = .next t →
    MapOk t ∧ QueueOk t ∧ JobsMatch t ∧
    (RoomOk s → ClaimOk s → OperationOk s → RoomOk t ∧ ClaimOk t ∧ OperationOk t)

/-- Every step keeps the image store's list in rising slot order (R40). -/
def Obligations.StoreFormIsKept : Prop :=
  ∀ s t : State, Store.wf s.map.store = true → step s = .next t → Store.wf t.map.store = true

/-- Every step keeps the recent orders to 4 and the capture set to 7 (R35, R68). -/
def Obligations.ListBoundsAreKept : Prop := ∀ s t : State, ListsOk s → step s = .next t → ListsOk t

/-- In ACTIVE and CAPTIVE mode no command raises WRITE GATE on the drive, passes write data to it or issues a target
write, and none leaves a write under way there: the drive's write data line is held at 0 and its write clock is quiet,
whatever the controller drives (R17, R34). -/
def Obligations.NoWriteReachesDrive : Prop :=
  ∀ (c : Instr) (s t : State), NoWriteUnderWay s → exec c s = .next t →
    NoWriteUnderWay t ∧ (s.svc.mode ≠ .passive → isPowerUp c = false → WritesNothing t.out) ∧
      (t.svc.mode ≠ .passive → ∀ data clock : Bool, driveWriteLines data clock t = (false, false))

/-- Only the controller's own POSITION, RETURN, HEAD and MARGIN move the view; no re-seat, recovery read, sweep or
command does (R18). -/
def Obligations.OnlyOrdersMoveTheView : Prop :=
  ∀ (c : Instr) (s t : State), exec c s = .next t → isPowerUp c = false →
    t.ctl.cyl = (match c with | .position _ k => k | .returnOrder _ => 0 | _ => s.ctl.cyl) ∧
    t.ctl.head = (match c with | .head _ h => h | _ => s.ctl.head) ∧
    t.ctl.strobe = (match c with | .margin _ st _ => st | _ => s.ctl.strobe) ∧
    t.ctl.offset = (match c with | .margin _ _ off => off | _ => s.ctl.offset)

/-- The recent orders take each controller order off the service cylinder, with its second, keep the last 4, and take
nothing else (R35). -/
def Obligations.RecentOrdersTakeOrders : Prop :=
  ∀ (c : Instr) (s t : State), exec c s = .next t → isPowerUp c = false →
    t.ctl.recentOrders =
      match orderOf c with
      | none => s.ctl.recentOrders
      | some (dt, o) =>
        if t.ctl.cyl = serviceCylinder s then s.ctl.recentOrders
        else
          (s.ctl.recentOrders ++ [(⟨o, min ((s.clock + dt) / 1000000) 16777215⟩ : OrderRecord)]).drop
            (s.ctl.recentOrders.length + 1 - 4)

/-- Mode, geometry, parameters, held response, ladders, zones and the staging image change only by a service command or
a field written to the service cylinder; the straps only at power-up (R1, R178, R185, R191). -/
def Obligations.OnlyServiceChangesSettings : Prop :=
  ∀ (c : Instr) (s t : State), exec c s = .next t → isPowerUp c = false →
    t.straps = s.straps ∧
    (carriesField c = false → encodeFrame c = none →
      t.svc = s.svc ∧ t.tables = s.tables ∧ t.map.staging = s.map.staging)

/-! ### The controller's orders -/

/-- POSITION and RETURN while the drive is not touched: in ACTIVE and CAPTIVE mode, and POSITION to V in every mode
(R19, R20, R23, R35). The order first ends the current operation (R15): a served or service read stops sending (R29),
a served write's claim is released (R41), a live operation lowers its gate, its capture ends and the quiet interval
starts (R12, R131), its re-seat goes no further (R122). A withholding is abandoned with report ORDER and its job
demoted (R37, R76): the re-seat goes no further, or the job gives up the drive when its step has ended (R134), or at
once, its capture abandoned; alone in the queue, it is granted the drive again and reads on (R65, R130). `seekFailed`
and `errorCleared` are the model's latches for a POSITION ERROR shown and for one cleared (log 13); that the report
says ORDER also when the limit had passed, and its duration cut to whole milliseconds, are the model's choices (logs
43 and 48). -/
def Obligations.PositionMovesTheView : Prop :=
  ∀ (dt c : Nat) (o : Op) (w : Withhold) (j : Job) (rest : List Job) (g : Rung) (s : State), let b := begin dt s
    let after := fun (e : State) (order : Order) (c : Nat) =>
      let v := decide (c = serviceCylinder s)
      let real := realCylinder s c
      Host.Outcome.next (φ := Fault) (ρ := Refusal)
        { e with
          ctl.cyl := c
          ctl.shownOnCylinder := v
          ctl.shownPositionError := b.ctl.shownPositionError || (!v && !real)
          ctl.seekFailed := !v && !real
          ctl.errorCleared := false
          ctl.settleDue := if !v && real && decide (s.svc.mode = .active) then some (b.clock + 1000) else none
          ctl.recentOrders :=
            if v then b.ctl.recentOrders else pushRecent ⟨order, seconds b⟩ b.ctl.recentOrders }
    let moves := fun (e : State) =>
      ((s.svc.mode ≠ .passive ∨ c = serviceCylinder s) → exec (.position dt c) s = after e (.position c) c) ∧
        (s.svc.mode ≠ .passive → exec (.returnOrder dt) s = after e .ret 0)
    let quiet := some (b.clock + s.svc.params.quietInterval * 1000)
    (Unoccupied b → moves b) ∧
    (s.ctl.op = some o → s.ctl.withhold = none → NothingDue b →
      (o.kind = .servedRead ∨ o.kind = .serviceRead → moves
        { b with ctl.op := none, out := if o.phase = .transferring ∧ o.fieldEnded = false then [.serveEnds] else [] }) ∧
      (o.kind = .servedWrite → moves { b with ctl.op := none, map.claim := none }) ∧
      (o.kind = .serviceWrite → moves { b with ctl.op := none })) ∧
    (s.ctl.op = some o → s.ctl.withhold = none → s.drv.holder = .controller → s.drv.passOn = .stays →
      s.drv.heldOrders = [] → s.drv.episode = none → restDue b = false →
      (s.drv.capture.all fun c => decide (c.party = .live)) = true →
      (s.drv.travel.all fun t => decide (t.purpose = .reseatLive)) = true →
      let ended : State := { b with ctl.op := none, drv.travel := none, drv.quietDue := quiet }
      (o.kind = .liveRead → moves
        { ended with
          drv.capture := none
          drv.readGate := false
          out := if s.drv.readGate then [.readGate false] else [] }) ∧
      (o.kind = .liveWrite → moves
        { ended with drv.writeGate := false, out := if s.drv.writeGate then [.writeGate false] else [] })) ∧
    (s.ctl.op = some o → o.kind = .withheld → s.ctl.withhold = some w → w.addr = j.addr → s.seq.queue = j :: rest →
      (∀ x ∈ rest, x.addr ≠ j.addr) → s.drv.passOn = .stays → restDue b = false → s.drv.heldOrders = [] →
      let back : Job := { j with cls := .background, state := .waiting }
      let ended : State :=
        { reported .order w b with
          ctl.op := none
          seq := if rest = [] then { s.seq with queue := [back] }
            else ⟨rest ++ [{ back with readsDone := 0 }], [], none, none⟩ }
      (s.drv.holder = .controller → s.drv.step.isSome = true → j.state = .waiting →
        (s.drv.travel.all fun t => decide (t.purpose = .reseatWithhold)) = true →
        moves { ended with drv.travel := none, drv.quietDue := quiet }) ∧
      (s.drv.holder = .recovery → s.drv.step.isSome = true → s.drv.capture = none → j.state = .active →
        moves { ended with drv.travel := none, drv.episode := none, drv.passOn := .toNobody }) ∧
      (s.drv.holder = .recovery → s.drv.step = none → s.drv.capture = some ⟨.recovery, j.addr, true, 0⟩ →
        s.drv.readGate = true → j.state = .active → rest = [] → s.svc.mode ≠ .passive → s.drv.condition = .turning →
        s.drv.resting = false → s.drv.lines.fault = false →
        (ladderOf s j.ladder).rungs[j.rungIndex]? = some g → j.readsDone < g.reads → g.restoreFirst = false →
        g.resetCopies = false → (isWorn s j.addr.head = false ∨ g.offset = .centre) →
        j.readsSpent < effectiveBudget (isWorn s j.addr.head) (ladderOf s j.ladder).budget →
        s.drv.record = ⟨some j.addr.cyl, some j.addr.head, some g.strobe, some g.offset⟩ →
        moves
          { ended with
            seq := { s.seq with queue := [{ back with state := .active }], workingRung := some g }
            drv.idle := 0
            drv.travel := none
            drv.episode := none
            drv.capture := some ⟨.recovery, j.addr, false, 0⟩
            drv.readGate := false
            out := [.readGate false, .order (.targetRead j.addr.sec)] }))

/-- POSITION and RETURN relayed in PASSIVE mode (R20): the step is in flight for the controller with the position
timeout of this moment, the recorded cylinder is UNKNOWN (R120) and shown ON CYLINDER is false. That the line falls as
the order is taken, the latches `seekFailed` and `errorCleared`, the drive's recorded ON CYLINDER falling at issue,
that no CLEAR goes before the order, and that a FAULT which rose while the view stood on V is not shown as it leaves V
are the model's choices (logs 14, 13, 7, 36 and 42). -/
def Obligations.PositioningIsRelayed : Prop :=
  ∀ (dt c : Nat) (s : State), let b := begin dt s
    s.svc.mode = .passive → DriveFree b →
    let after := fun (o : Order) (c : Nat) =>
      Host.Outcome.next (φ := Fault) (ρ := Refusal)
        { b with
          ctl.cyl := c
          ctl.shownOnCylinder := false
          ctl.seekFailed := false
          ctl.errorCleared := false
          ctl.settleDue := none
          ctl.recentOrders := pushRecent ⟨o, seconds b⟩ b.ctl.recentOrders
          drv.lines.onCylinder := false
          drv.record.cyl := none
          drv.holder := .controller
          drv.quietDue := none
          drv.step := some ⟨o, none, b.clock, s.svc.params.positionTimeout * 1000, false⟩
          out := [.order o] }
    (c ≠ serviceCylinder s → exec (.position dt c) s = after (.position c) c) ∧
      exec (.returnOrder dt) s = after .ret 0

/-- HEAD (R20, R21): the view head alone; relayed in PASSIVE mode off V, which is a controller use with its quiet
interval (R131). -/
def Obligations.HeadSelects : Prop :=
  ∀ (dt h : Nat) (s : State), let b := begin dt s
    let v := decide (s.ctl.cyl = serviceCylinder s)
    let recent := if v then b.ctl.recentOrders else pushRecent ⟨.head h, seconds b⟩ b.ctl.recentOrders
    (Unoccupied b → (s.svc.mode ≠ .passive ∨ v = true) →
      exec (.head dt h) s = .next { b with ctl.head := h, ctl.recentOrders := recent }) ∧
    (DriveFree b → s.svc.mode = .passive → v = false →
      exec (.head dt h) s = .next
        { b with
          ctl.head := h
          ctl.recentOrders := recent
          drv.record.head := some h
          drv.holder := .controller
          drv.quietDue := some (b.clock + s.svc.params.quietInterval * 1000)
          out := [.order (.head h)] })

/-- MARGIN (R20, R21): the view's strobe and offset; a changed offset drops shown ON CYLINDER on a real cylinder in
ACTIVE mode, for a view settle, or after a cleared POSITION ERROR until the next POSITION or RETURN (R23); in PASSIVE
mode off V it is relayed, as a step when it changes the drive's offset (R121). When a cleared POSITION ERROR holds the
line false, the drive's recorded ON CYLINDER falling at issue, and that no CLEAR goes before the order are the model's
choices (logs 13, 7 and 36). -/
def Obligations.MarginSets : Prop :=
  ∀ (dt : Nat) (st : Strobe) (off : Offset) (s : State), let b := begin dt s
    let v := decide (s.ctl.cyl = serviceCylinder s)
    let recent := if v then b.ctl.recentOrders else pushRecent ⟨.margin st off, seconds b⟩ b.ctl.recentOrders
    let viewed : State := { b with ctl.strobe := st, ctl.offset := off, ctl.recentOrders := recent }
    let changes := realCylinder s s.ctl.cyl && decide (off ≠ s.ctl.offset)
    let use := some (b.clock + s.svc.params.quietInterval * 1000)
    (Unoccupied b → (v = true ∨ (s.svc.mode ≠ .passive ∧ (changes = false ∨ s.svc.mode = .captive))) →
      exec (.margin dt st off) s = .next viewed) ∧
    (Unoccupied b → v = false → s.svc.mode = .active → changes = true →
      exec (.margin dt st off) s = .next
        { viewed with
          ctl.shownOnCylinder := false
          ctl.settleDue := if s.ctl.errorCleared then s.ctl.settleDue else some (b.clock + 1000) }) ∧
    (DriveFree b → v = false → s.svc.mode = .passive → b.drv.record.offset = some off →
      exec (.margin dt st off) s = .next
        { viewed with
          drv.record.strobe := some st
          drv.holder := .controller
          drv.quietDue := use
          out := [.order (.margin st off)] }) ∧
    (DriveFree b → v = false → s.svc.mode = .passive → b.drv.record.offset ≠ some off →
      exec (.margin dt st off) s = .next
        { viewed with
          ctl.shownOnCylinder := false
          drv.record.strobe := some st
          drv.record.offset := none
          drv.lines.onCylinder := b.drv.record.offset.isNone && b.drv.lines.onCylinder
          drv.holder := .controller
          drv.quietDue := none
          drv.step := some ⟨.margin st off, none, b.clock, s.svc.params.positionTimeout * 1000,
            b.drv.record.offset.isNone⟩
          out := [.order (.margin st off)] })

/-- CLEAR (R23): the two shown lines; relayed in PASSIVE mode off V, and in the other modes off V when the drive is
TURNING with FAULT or POSITION ERROR raised. A cleared POSITION ERROR holds shown ON CYLINDER false until the next
POSITION or RETURN. When it does, and that the recorded POSITION ERROR of the drive falls at the CLEAR, are the
model's choices (logs 13 and 7). -/
def Obligations.ClearClears : Prop :=
  ∀ (dt : Nat) (s : State), let b := begin dt s
    let v := decide (s.ctl.cyl = serviceCylinder s)
    let shown : State := { b with
      ctl.shownFault := false
      ctl.shownPositionError := false
      ctl.errorCleared := s.ctl.errorCleared ||
        (s.ctl.shownPositionError && s.ctl.seekFailed && !s.ctl.shownOnCylinder && s.ctl.settleDue.isNone)
      ctl.recentOrders := if v then b.ctl.recentOrders else pushRecent ⟨.clear, seconds b⟩ b.ctl.recentOrders }
    let reaches := !v && (decide (s.svc.mode = .passive) ||
      (decide (b.drv.condition = .turning) && (b.drv.lines.fault || b.drv.lines.positionError)))
    (Unoccupied b → reaches = false → exec (.clear dt) s = .next shown) ∧
    (DriveFree b → reaches = true → exec (.clear dt) s = .next
      { shown with
        drv.lines.positionError := false
        drv.holder := .controller
        drv.quietDue := some (b.clock + s.svc.params.quietInterval * 1000)
        out := [.order .clear] })

/-- Targets the device serves (R28): every target on V, and in ACTIVE mode a write to a real sector and a read of a
RECOVERED (state code 2, R203) or OVERLAY (4) one. The generated MATCH is due 1 ms later (R128). -/
def Obligations.TargetsAreServed : Prop :=
  ∀ (dt k : Nat) (s : State), let b := begin dt s
    Unoccupied b → s.ctl.shownOnCylinder = true →
    let a : Addr := ⟨s.ctl.cyl, s.ctl.head, k⟩
    let v := decide (s.ctl.cyl = serviceCylinder s)
    let served := fun (o : Order) (kind : OpKind) =>
      Host.Outcome.next (φ := Fault) (ρ := Refusal)
        { b with
          ctl.op := some ⟨kind, a, .awaitingMatch, some (b.clock + 1000), false, false, none⟩
          ctl.recentOrders :=
            if v then b.ctl.recentOrders else pushRecent ⟨o, seconds b⟩ b.ctl.recentOrders }
    (v = true →
      exec (.targetRead dt k) s = served (.targetRead k) .serviceRead ∧
        exec (.targetWrite dt k) s = served (.targetWrite k) .serviceWrite) ∧
    (v = false → s.svc.mode = .active → realAddr s a = true →
      exec (.targetWrite dt k) s = served (.targetWrite k) .servedWrite ∧
        ((entryStateCode s a = 2 ∨ entryStateCode s a = 4) →
          exec (.targetRead dt k) s = served (.targetRead k) .servedRead))

/-- Targets that have no effect but their place among the recent orders (R27): shown ON CYLINDER false, or off V in
CAPTIVE mode, or in ACTIVE mode a sector that is not real. -/
def Obligations.TargetsAreIgnored : Prop :=
  ∀ (dt k : Nat) (s : State), let b := begin dt s
    let v := decide (s.ctl.cyl = serviceCylinder s)
    Unoccupied b →
    (s.ctl.shownOnCylinder = false ∨
      (v = false ∧ (s.svc.mode = .captive ∨
        (s.svc.mode = .active ∧ realAddr s ⟨s.ctl.cyl, s.ctl.head, k⟩ = false)))) →
    let after := fun (o : Order) =>
      Host.Outcome.next (φ := Fault) (ρ := Refusal)
        { b with ctl.recentOrders :=
            if v then b.ctl.recentOrders else pushRecent ⟨o, seconds b⟩ b.ctl.recentOrders }
    exec (.targetRead dt k) s = after (.targetRead k) ∧ exec (.targetWrite dt k) s = after (.targetWrite k)

/-- A live target (R28, R32): a read in PASSIVE mode, or in ACTIVE mode of a real sector that has no entry (state code
0, R203), is LOST (3), or is PENDING (1) where withholding may not begin; a write in PASSIVE mode. In ACTIVE mode a
LOST drive answers with FAULT. A drive that stands elsewhere is brought to the view first (R122): by a POSITION step
from another cylinder, by HEAD and a MARGIN that changes the strobe at once, by a MARGIN step from another offset.
From RECOVERY or SWEEP the drive is taken at once, or when their step in flight has ended: the capture is abandoned,
an ACTIVE job waits, a track read is interrupted (R69, R132, R156). That a FAULT already raised is shown at once, and
the drive's recorded POSITION ERROR and ON CYLINDER after CLEAR, POSITION and MARGIN, are the model's choices (logs 37
and 7), as is that the party loses its work at once and its holding shows until its step in flight has ended (log 8).
-/
def Obligations.LiveTargetsReachDrive : Prop :=
  ∀ (dt k : Nat) (s : State), let b := begin dt s
    let a : Addr := ⟨s.ctl.cyl, s.ctl.head, k⟩
    s.ctl.shownOnCylinder = true → s.ctl.cyl ≠ serviceCylinder s →
    let mayWait := decide (0 < s.svc.params.withholdLimit) && decide (b.drv.condition = .turning) && !b.drv.resting
    let entryState := entryStateCode s a
    let readIsLive := s.svc.mode = .passive ∨
      (s.svc.mode = .active ∧ realAddr s a = true ∧
        (entryState = 0 ∨ entryState = 3 ∨ (entryState = 1 ∧ mayWait = false)))
    let taken := fun (o : Order) =>
      ({ b with ctl.recentOrders := pushRecent ⟨o, seconds b⟩ b.ctl.recentOrders } : State)
    let asked := fun (o : Order) (kind : OpKind) (phase : Phase) =>
      ({ taken o with
          ctl.op := some ⟨kind, a, phase, none, false, false, none⟩
          ctl.shownFault := b.ctl.shownFault || b.drv.lines.fault
          drv.lines.positionError := false
          drv.holder := .controller
          drv.quietDue := none
          out := (if b.drv.lines.positionError then [.order .clear] else []) } : State)
    let seeking := fun (o : Order) (kind : OpKind) =>
      Host.Outcome.next (φ := Fault) (ρ := Refusal)
        { asked o kind .awaitingDrive with
          drv.lines.positionError := false
          drv.lines.onCylinder := false
          drv.record.cyl := none
          drv.step := some ⟨.position s.ctl.cyl, some .reach, b.clock, s.svc.params.positionTimeout * 1000, false⟩
          drv.travel := some ⟨.reseatLive, s.ctl.cyl, s.ctl.head, s.ctl.strobe, s.ctl.offset, [.select, .margin], true,
            none⟩
          out := (asked o kind .awaitingDrive).out ++ [.order (.position s.ctl.cyl)] }
    let select := if b.drv.record.head = some s.ctl.head then [] else [Signal.order (.head s.ctl.head)]
    let margin := Signal.order (.margin s.ctl.strobe s.ctl.offset)
    let targeted := fun (o : Order) (kind : OpKind) (capture : Option Capture) =>
      Host.Outcome.next (φ := Fault) (ρ := Refusal)
        { asked o kind .awaitingMatch with
          drv.record := ⟨some s.ctl.cyl, some s.ctl.head, some s.ctl.strobe, some s.ctl.offset⟩
          drv.capture := capture
          out := (asked o kind .awaitingMatch).out ++ select
            ++ (if b.drv.record.strobe = some s.ctl.strobe then [] else [margin]) ++ [.order o] }
    let settling := fun (o : Order) (kind : OpKind) =>
      Host.Outcome.next (φ := Fault) (ρ := Refusal)
        { asked o kind .awaitingDrive with
          drv.record := ⟨some s.ctl.cyl, some s.ctl.head, some s.ctl.strobe, none⟩
          drv.lines.onCylinder := b.drv.record.offset.isNone && b.drv.lines.onCylinder
          drv.step := some ⟨.margin s.ctl.strobe s.ctl.offset, some .margin, b.clock,
            s.svc.params.positionTimeout * 1000, b.drv.record.offset.isNone⟩
          drv.travel := some ⟨.reseatLive, s.ctl.cyl, s.ctl.head, s.ctl.strobe, s.ctl.offset, [], true, none⟩
          out := (asked o kind .awaitingDrive).out ++ select ++ [margin] }
    let onTrack := b.drv.record.cyl = some s.ctl.cyl
    let centred := b.drv.record.offset = some s.ctl.offset
    (DriveFree b →
      (readIsLive → s.svc.mode = .active → b.drv.condition = .lost →
        exec (.targetRead dt k) s = .next { taken (.targetRead k) with ctl.shownFault := true }) ∧
      (readIsLive → (s.svc.mode = .passive ∨ b.drv.condition = .turning) →
        (onTrack → centred →
          exec (.targetRead dt k) s = targeted (.targetRead k) .liveRead (some ⟨.live, a, false, 0⟩)) ∧
        (onTrack → ¬centred → exec (.targetRead dt k) s = settling (.targetRead k) .liveRead) ∧
        (¬onTrack → exec (.targetRead dt k) s = seeking (.targetRead k) .liveRead)) ∧
      (s.svc.mode = .passive →
        (onTrack → centred → exec (.targetWrite dt k) s = targeted (.targetWrite k) .liveWrite none) ∧
        (onTrack → ¬centred → exec (.targetWrite dt k) s = settling (.targetWrite k) .liveWrite) ∧
        (¬onTrack → exec (.targetWrite dt k) s = seeking (.targetWrite k) .liveWrite))) ∧
    (s.ctl.op = none → s.ctl.withhold = none → s.drv.holder.isDevice = true → s.drv.passOn = .stays →
      s.drv.heldOrders = [] → restDue b = false → (s.drv.capture.all fun c => decide (c.party ≠ .live)) = true →
      s.svc.mode = .active → s.drv.condition = .turning → readIsLive →
      let lowered := if s.drv.readGate && s.drv.capture.isSome then [Signal.readGate false] else []
      let yielded : State :=
        { asked (.targetRead k) .liveRead .awaitingDrive with
          seq.queue := s.seq.queue.map fun j => if j.state = .active then { j with state := .waiting } else j
          sweep := if s.sweep.state = .sweeping then
            { s.sweep with state := .waiting, cause := none, refusalMet := false, pass := .reaching, marked := [] }
            else s.sweep
          drv.travel := none
          drv.episode := none
          drv.capture := none
          drv.readGate := s.drv.readGate && s.drv.capture.isNone }
      (s.drv.step.isSome = true → exec (.targetRead dt k) s = .next
        { yielded with
          drv.lines := b.drv.lines
          drv.holder := s.drv.holder
          drv.passOn := .toController
          out := lowered }) ∧
      (s.drv.step = none → onTrack → centred → exec (.targetRead dt k) s = .next
        { yielded with
          ctl.op := some ⟨.liveRead, a, .awaitingMatch, none, false, false, none⟩
          drv.record := ⟨some s.ctl.cyl, some s.ctl.head, some s.ctl.strobe, some s.ctl.offset⟩
          drv.capture := some ⟨.live, a, false, 0⟩
          out := lowered ++ yielded.out ++ select ++ (if b.drv.record.strobe = some s.ctl.strobe then [] else [margin])
            ++ [.order (.targetRead k)] }))

/-- A read of a PENDING sector is withheld (R28, R36, R75): its record opens, its job becomes the foreground head, and
the drive, standing elsewhere, is brought to the view with holder CONTROLLER. -/
def Obligations.PendingReadIsWithheld : Prop :=
  ∀ (dt k : Nat) (s : State) (e : Entry) (j : Job), let b := begin dt s
    let a : Addr := ⟨s.ctl.cyl, s.ctl.head, k⟩
    DriveFree b → s.ctl.shownOnCylinder = true → s.ctl.cyl ≠ serviceCylinder s → s.svc.mode = .active →
    realAddr s a = true → entryOf s a = some e → e.body = .pending → jobOf s a = some j →
    0 < s.svc.params.withholdLimit → b.drv.condition = .turning → b.drv.resting = false →
    b.drv.record.cyl ≠ some s.ctl.cyl →
    ∃ t, exec (.targetRead dt k) s = .next t ∧
      t.ctl.withhold = some ⟨a, b.clock, s.svc.params.withholdLimit, false⟩ ∧
      t.ctl.op = some ⟨.withheld, a, .awaitingDrive, none, false, false, none⟩ ∧
      (t.seq.queue.head?).map (fun j => (j.addr, j.cls)) = some (a, .foreground) ∧
      t.seq.queue.map Job.addr = a :: (b.seq.queue.map Job.addr).filter (fun x => decide (x ≠ a)) ∧
      t.drv.holder = .controller ∧ t.drv.quietDue = none ∧
      t.drv.step = some ⟨.position s.ctl.cyl, some .reach, b.clock, s.svc.params.positionTimeout * 1000, false⟩ ∧
      t.ctl.shownFault = b.ctl.shownFault ∧ t.map = b.map ∧ t.sweep = b.sweep ∧ t.log = b.log ∧ t.heads = b.heads ∧
      t.svc = b.svc ∧ t.tables = b.tables ∧ t.clock = b.clock

/-! ### Gates and written fields -/

/-- READ GATE (R16, R29, R31, R32): accepted awaiting the gate of a read, when the transfer begins; elsewhere ignored. A
served read sends the image of the sector's slot; a service read of head 0 sends the held response (sector 0) or the
status frame built at MATCH (sector 1), any other service sector zeros; a live read raises the gate on the drive. -/
def Obligations.ReadGateBeginsTransfer : Prop :=
  ∀ (dt : Nat) (o : Op) (e : Entry) (f : Field) (s : State), let b := begin dt s
    s.ctl.op = some o →
    let reads := decide (o.kind = .servedRead ∨ o.kind = .serviceRead ∨ o.kind = .liveRead)
    let going : State := { b with ctl.op := some { o with phase := .transferring } }
    let sends := fun (f : Field) =>
      exec (.readGate dt) s = .next { going with out := [.serve f (s.ctl.servedRate.getD s.straps.bitRate)] }
    let sector := fun (k : Nat) => decide (o.addr.head = 0 ∧ o.addr.sec = k)
    ((o.phase ≠ .awaitingGate ∨ reads = false) → exec (.readGate dt) s = .next b) ∧
    (o.phase = .awaitingGate →
      (o.kind = .servedRead → entryOf s o.addr = some e → e.body ≠ .pending →
        sends (readSlot s (e.body.slot?.getD 0))) ∧
      (o.kind = .serviceRead → sector 0 = true → sends s.svc.heldResponse) ∧
      (o.kind = .serviceRead → sector 1 = true → o.built = some f → sends f) ∧
      (o.kind = .serviceRead → sector 0 = false → sector 1 = false → sends (List.replicate (s.straps.data + 1) 0)) ∧
      (o.kind = .liveRead →
        exec (.readGate dt) s = .next { going with drv.readGate := true, out := [.readGate true] }))

/-- READ GATE falls (R16, R29, R32), and a served transfer ends (R29): a transfer in progress stops, the operation ends
with the gate, and a live read's gate is lowered on the drive, its capture ends and the quiet interval starts (R131). -/
def Obligations.ReadTransfersEnd : Prop :=
  ∀ (dt : Nat) (o : Op) (s : State), let b := begin dt s
    s.ctl.op = some o → o.phase = .transferring →
    (o.kind = .servedRead ∨ o.kind = .serviceRead →
      (NothingDue b → exec (.readGateFalls dt) s =
        .next { b with ctl.op := none, out := if o.fieldEnded then [] else [.serveEnds] }) ∧
      (o.fieldEnded = false → exec (.servedTransferEnds dt) s =
        .next { b with ctl.op := some { o with fieldEnded := true }, out := [.serveEnds] })) ∧
    (o.kind = .liveRead → ControllerHas b → (b.drv.capture.all fun c => decide (c.party = .live)) = true →
      exec (.readGateFalls dt) s = .next
        { b with
          ctl.op := none
          drv.capture := none
          drv.readGate := false
          drv.quietDue := some (b.clock + s.svc.params.quietInterval * 1000)
          out := if b.drv.readGate then [.readGate false] else [] })

/-- WRITE GATE on a served write (R30, R41): by the sector's entry the map claims an entry and a slot, a slot, or
nothing, or with none free refuses the gate, raises FAULT and changes nothing else; on a service write it is accepted,
on a live write raised on the drive (R31, R34). What a claim holds is free no longer (R41): outside PASSIVE mode shown
PROTECT stands after the gate exactly when the claim left no entry or no slot free, and a gate is refused only while
it is shown, before and after (R24, R30, R42). -/
def Obligations.WriteGateClaims : Prop :=
  ∀ (dt : Nat) (o : Op) (s : State), let b := begin dt s
    freeEntries s = 1024 - (s.map.entries.length + if s.map.claim.any Claim.entry then 1 else 0) ∧
    freeSlots s = 1024 - ((slotsInUse s).length + if (s.map.claim.bind Claim.slot).isSome then 1 else 0) ∧
    (s.ctl.op = some o → o.phase = .awaitingGate → o.gateRefused = false →
    let going : State := { b with ctl.op := some { o with phase := .transferring } }
    let claims := fun (entry : Bool) (slot : Option Nat) =>
      let claimed : State := { going with map.claim := some ⟨o.addr, entry, slot⟩ }
      exec (.writeGate dt) s = .next claimed ∧
        (s.map.claim = none →
          freeEntries claimed = freeEntries s - (if entry then 1 else 0) ∧
          freeSlots claimed = freeSlots s - (if slot.isSome then 1 else 0) ∧
          (s.svc.mode ≠ .passive → (shownProtect claimed = true ↔
            freeEntries s ≤ (if entry then 1 else 0) ∨ freeSlots s ≤ (if slot.isSome then 1 else 0))))
    let refused :=
      let left : State := { b with ctl.op := some { o with gateRefused := true }, ctl.shownFault := true }
      exec (.writeGate dt) s = .next left ∧
        (s.svc.mode ≠ .passive → shownProtect s = true ∧ shownProtect left = true)
    let entryState := entryStateCode s o.addr
    (o.kind = .servedWrite →
      (entryState = 0 → (freeEntries s = 0 ∨ freeSlots s = 0) → refused) ∧
      (entryState = 0 → 0 < freeEntries s → 0 < freeSlots s → claims true (some (freeSlot s))) ∧
      (entryState = 1 → freeSlots s = 0 → refused) ∧
      (entryState = 1 → 0 < freeSlots s → claims false (some (freeSlot s))) ∧
      (2 ≤ entryState → claims false none)) ∧
    (o.kind = .serviceWrite → exec (.writeGate dt) s = .next going) ∧
    (o.kind = .liveWrite →
      exec (.writeGate dt) s = .next { going with drv.writeGate := true, out := [.writeGate true] }))

/-- The slot a transition takes is the free and unclaimed one with the lowest number (R40). -/
def Obligations.FreeSlotIsLowest : Prop :=
  ∀ s : State, 0 < freeSlots s →
    let taken := slotsInUse s ++ (s.map.claim.bind Claim.slot).toList
    freeSlot s < 1024 ∧ freeSlot s ∉ taken ∧ ∀ k < freeSlot s, k ∈ taken

/-- A write ends (R14, R16, R30, R41): at the gate's fall, accepted or refused, the operation ends and what is still
claimed is released; a write clock that stops ends the field SHORT and releases the claim. A live write's gate falls
on the drive, with its quiet interval (R34, R131); what was clocked of a field cut short, or after a full one, has
gone to the drive (R34), listed with the command that ends it (log 39), and while the gate is raised the drive's write
data line and write clock are the controller's own. -/
def Obligations.WritesEnd : Prop :=
  ∀ (dt : Nat) (bits : List Bool) (o : Op) (s : State), let b := begin dt s
    let passed := if o.kind = .liveWrite ∧ bits ≠ [] then [Signal.writeBits bits] else []
    s.ctl.op = some o →
    (o.kind = .servedWrite → (o.phase = .transferring ∨ o.gateRefused = true) → NothingDue b →
      exec (.writeGateFalls ⟨dt, bits⟩) s = .next { b with ctl.op := none, map.claim := none }) ∧
    (o.kind = .serviceWrite → o.phase = .transferring → NothingDue b →
      exec (.writeGateFalls ⟨dt, bits⟩) s = .next { b with ctl.op := none }) ∧
    (o.kind = .liveWrite → o.phase = .transferring → ControllerHas b → b.drv.capture = none →
      exec (.writeGateFalls ⟨dt, bits⟩) s = .next
        { b with
          ctl.op := none
          drv.writeGate := false
          drv.quietDue := some (b.clock + s.svc.params.quietInterval * 1000)
          out := passed ++ if b.drv.writeGate then [.writeGate false] else [] }) ∧
    ((o.kind = .servedWrite ∨ o.kind = .serviceWrite ∨ o.kind = .liveWrite) → o.phase = .transferring →
      o.fieldEnded = false → exec (.writeClockTimeout ⟨dt, bits⟩) s =
        .next { b with ctl.op := some { o with fieldEnded := true }, map.claim := none, out := passed }) ∧
    (o.kind = .liveWrite → o.phase = .transferring →
      driveWriteLines true true s = (true, true) ∧ driveWriteLines false true s = (false, true) ∧
        driveWriteLines true false s = (true, false))

/-- A full written field (R14, R49): a served write makes its sector an OVERLAY with the field as written, in the slot
claimed or in the entry's own, and the entry keeps its origin and counts; of a PENDING sector the job leaves the queue
(R80), whatever its place, and the head job gives up the drive. No other sector's entry and no other slot changes. A
field written to a service sector other than sector 0 of head 0 has no effect (R31); on a live write the data goes to
the drive (R34), listed when the field is full (log 39). That a fault episode in progress ends without judgement as the
cancelled job gives up the drive is the model's choice (log 60). -/
def Obligations.FullWriteIsAbsorbed : Prop :=
  ∀ (dt k : Nat) (field : List Nat) (o : Op) (e : Entry) (j : Job) (rest : List Job) (s : State), let b := begin dt s
    s.ctl.op = some o → o.phase = .transferring → o.fieldEnded = false →
    let a := o.addr
    let f := takeField s.straps field
    let ended : State := { b with ctl.op := some { o with fieldEnded := true } }
    let marked : Engine :=
      ⟨s.eng.inFlight.map fun v => if v.owner = a then { v with discard := true } else v,
        s.eng.waiting.map fun v => if v.owner = a then { v with discard := true } else v⟩
    let absorbs := fun (after : Entry) (seq : Sequencer) (eng : Engine) (sweep : Sweep) (drv : DrivePort)
        (out : List Signal) =>
      ∃ t, exec (.writeFieldFull dt field) s = .next t ∧
        entryOf t a = some after ∧ readSlot t k = f ∧
        (∀ x : Addr, x ≠ a → entryOf t x = entryOf s x) ∧ (∀ n : Nat, n ≠ k → readSlot t n = readSlot s n) ∧
        Store.wf t.map.store = true ∧ t.map.claim = none ∧ t.map.staging = s.map.staging ∧
        t.seq = seq ∧ t.eng = eng ∧ t.sweep = sweep ∧ t.ctl = ended.ctl ∧ t.drv = drv ∧ t.svc = b.svc ∧ t.heads = b.heads ∧
        t.log = b.log ∧ t.tables = b.tables ∧ t.clock = b.clock ∧ t.straps = s.straps ∧ t.pending = s.pending ∧ t.out = out
    (o.kind = .servedWrite → NothingDue b → Store.wf s.map.store = true →
      (entryOf s a = none → s.map.claim = some ⟨a, true, some k⟩ →
        absorbs ⟨a, .controller, .settled .overlay 0 none k⟩ s.seq s.eng s.sweep b.drv []) ∧
      (entryOf s a = some e → e.body ≠ .pending → e.body.slot? = some k →
        absorbs { e with body := .settled .overlay (entryCounts s e).1 (entryCounts s e).2 k }
          s.seq s.eng s.sweep b.drv []) ∧
      (entryOf s a = some e → e.body = .pending → s.map.claim = some ⟨a, false, some k⟩ → jobOf s a = some j →
        s.sweep.state ≠ .blocked →
        let after := { e with body := .settled .overlay j.readsSpent j.lastWeak k }
        let noticed : Sweep :=
          { s.sweep with cause := if s.sweep.state = .sweeping then none else s.sweep.cause }
        ((headJob s).map Job.addr ≠ some a →
          absorbs after { s.seq with queue := s.seq.queue.filter fun x => decide (x.addr ≠ a) } marked noticed b.drv
            []) ∧
        (s.seq.queue = j :: rest → (∀ x ∈ rest, x.addr ≠ a) → s.drv.holder = .controller →
          absorbs after ⟨rest, [], none, none⟩ marked noticed b.drv []) ∧
        (s.seq.queue = [j] → j.state ≠ .waiting → s.sweep.state = .idle → s.drv.holder = .recovery →
          s.ctl.withhold = none → s.drv.passOn = .stays → s.drv.step = none →
          (s.drv.capture.all fun c => decide (c.party ≠ .live)) = true → restDue b = false →
          absorbs after ⟨[], [], none, none⟩ marked s.sweep
            { b.drv with
              holder := .nobody
              travel := none
              episode := none
              capture := none
              readGate := s.drv.readGate && s.drv.capture.isNone }
            (if s.drv.readGate && s.drv.capture.isSome then [.readGate false] else [])))) ∧
    (o.kind = .serviceWrite → (o.addr.head ≠ 0 ∨ o.addr.sec ≠ 0) →
      exec (.writeFieldFull dt field) s = .next ended) ∧
    (o.kind = .liveWrite → exec (.writeFieldFull dt field) s = .next { ended with out := [.writeData f] })

/-! ### Service commands -/

/-- SET GEOMETRY, judged in the order of R190. -/
def Obligations.SetGeometrySets : Prop :=
  ∀ (dt tag cyls heads secs : Nat) (s : State), acceptsFrame s = true → let b := begin dt s
    let inRange := decide (1 ≤ cyls ∧ cyls ≤ 1020 ∧ 1 ≤ heads ∧ heads ≤ 16 ∧ 1 ≤ secs ∧ secs ≤ 64)
    let after := fun (t : State) => exec (.setGeometry dt tag cyls heads secs) s = .next t
    (s.svc.mode ≠ .passive → after (refusedWith tag 2 b)) ∧
    (s.svc.mode = .passive → inRange = false → after (refusedWith tag 3 b)) ∧
    (s.svc.mode = .passive → inRange = true → s.map.entries ≠ [] → after (refusedWith tag 5 b)) ∧
    (s.svc.mode = .passive → inRange = true → s.map.entries = [] →
      after (answered tag 1 [cyls, heads, secs, 0, 0]
        { b with svc.geometry := some ⟨cyls, heads, secs⟩, map.staging := none }))

/-- SET PARAMETERS (R191): each selected field clamped to its range, the others kept, all five reported. A limiter
turned off or on starts its work counter from 0 (R145); no rest is in progress, and the new work duration is not yet
reached. That the work counter and the idle timer keep their values otherwise is the model's choice (log 27). -/
def Obligations.SetParametersSets : Prop :=
  ∀ (dt tag mask wl qi pt wc rc : Nat) (s : State), acceptsFrame s = true → let b := begin dt s
    let pick := fun (n lo hi new old : Nat) => if mask.testBit n then max lo (min new hi) else old
    let p : Params :=
      { withholdLimit := pick 0 0 4000 wl s.svc.params.withholdLimit
        quietInterval := pick 1 10 4000 qi s.svc.params.quietInterval
        positionTimeout := pick 2 50 4000 pt s.svc.params.positionTimeout
        workCode := pick 3 0 255 wc s.svc.params.workCode
        restCode := pick 4 0 255 rc s.svc.params.restCode }
    let on := fun (p : Params) => decide (p.workCode ≠ 0 ∧ p.restCode ≠ 0)
    let changed := decide (p.workCode ≠ s.svc.params.workCode ∨ p.restCode ≠ s.svc.params.restCode)
    NothingDue b → b.drv.resting = false → (changed = true → b.drv.work < codeDuration p.workCode ∨ on p = false) →
    exec (.setParameters dt tag mask wl qi pt wc rc) s = .next
      (answered tag 1 [p.withholdLimit, p.quietInterval, p.positionTimeout, p.workCode, p.restCode]
        { b with
          svc.params := p
          drv.work := if changed && (!on p || !on s.svc.params) then 0 else b.drv.work })

/-- LOAD ZONE and CLEAR ZONE (R93): 0xFFF is the head ANY; a number outside its range is refused RANGE and changes
nothing. -/
def Obligations.ZonesAreSet : Prop :=
  ∀ (dt tag n h lo hi l : Nat) (s : State), acceptsFrame s = true → let b := begin dt s
    let inRange := decide (n ≤ 15 ∧ (h ≤ 15 ∨ h = 4095) ∧ lo ≤ 1019 ∧ hi ≤ 1019 ∧ lo ≤ hi ∧ l ≤ 7)
    exec (.loadZone dt tag n h lo hi l) s = .next
      (if inRange then
        answered tag 1 [n, h, lo, hi, l]
          { b with
            tables.zones := s.tables.zones.set n (some ⟨if h = 4095 then none else some h, lo, hi, l⟩) }
       else refusedWith tag 3 b) ∧
    exec (.clearZone dt tag n) s = .next
      (if n ≤ 15 then answered tag 1 [n, 0, 0, 0, 0] { b with tables.zones := s.tables.zones.set n none }
       else refusedWith tag 3 b)

/-- SET LADDER HEADER (R84, R87), LOAD RUNG (R88) and CLEAR LADDER (R89): a rung replaced, appended at the end of the
list, FULL at 16 rungs, RANGE elsewhere. -/
def Obligations.LaddersAreSet : Prop :=
  ∀ (dt tag k n m l budget r0 r1 : Nat) (s : State), acceptsFrame s = true → let b := begin dt s
    let lad := s.tables.ladders.getD k Ladder.empty
    let put := fun (x : Ladder) => ({ b with tables.ladders := s.tables.ladders.set k x } : State)
    let m' := max 1 (min m 7)
    let l' := min l 8
    let budget' := max 1 (min budget 255)
    let rung : Rung :=
      { strobe := (strobeOf (r0 / 256 % 16)).getD .nominal
        offset := (offsetOf (r0 / 16 % 16)).getD .centre
        reads := max 1 (min (r0 % 16) 7)
        restoreFirst := r1.testBit 11, resetCopies := r1.testBit 10, voteAfter := r1.testBit 9
        onFailure := (onFailureOf (r1 % 16)).getD .cont }
    let valid := decide (r0 / 256 % 16 ≤ 2 ∧ r0 / 16 % 16 ≤ 2 ∧ r1 % 16 ≤ 2)
    lad.rungs.length ≤ 16 →
    exec (.setLadderHeader dt tag k m l budget) s = .next
      (if k ≤ 7 then
        answered tag 1 [k, m', l', budget', 0] (put { lad with m := m', l := l', budget := budget' })
       else refusedWith tag 3 b) ∧
    exec (.loadRung dt tag k n r0 r1) s = .next
      (if 7 < k ∨ valid = false ∨ lad.rungs.length < n then refusedWith tag 3 b
       else if n = 16 then refusedWith tag 4 b
       else
        answered tag 1 ([k, n] ++ rung.units ++ [max lad.rungs.length (n + 1)])
          (put { lad with rungs := lad.rungs.take n ++ [rung] ++ lad.rungs.drop (n + 1) })) ∧
    exec (.clearLadder dt tag k) s = .next
      (if k ≤ 7 then answered tag 1 [k, 0, 0, 0, 0] (put { lad with rungs := [] }) else refusedWith tag 3 b)

/-- SET HEAD (R169): the selected fields clamped, the worn flag evaluated (R167), and a HEAD WORN incident at the
position after the index when the flag goes from clear to set (R168, R172, R173). -/
def Obligations.SetHeadSets : Prop :=
  ∀ (dt tag h mask threshold score : Nat) (r : HeadRecord) (s : State), acceptsFrame s = true → let b := begin dt s
    s.heads.length = 16 → (h ≤ 15 → s.heads[h]? = some r) →
    let th := if mask.testBit 0 then min threshold 200 else r.threshold
    let sc := if mask.testBit 1 then min score 200 else r.score
    let worn := if sc ≤ th then true else if th + 16 ≤ sc then false else r.worn
    let set : State := { b with heads := s.heads.set h { r with score := sc, threshold := th, worn := worn } }
    let slot := s.log.index % 8
    let logged : State := { set with log := {
      positions := s.log.positions.set slot
        (some ⟨.headWorn h, min (b.clock / 1000000) 16777215, s.ctl.recentOrders⟩)
      index := slot + 1
      held := min (s.log.held + 1) 8
      lifetime := min (s.log.lifetime + 1) 65535 } }
    exec (.setHead dt tag h mask threshold score) s = .next
      (if h ≤ 15 then
        answered tag 1 ([h, sc, th, flagCode worn, 0] ++ twoUnits r.cleanReads ++ twoUnits r.recoveries
          ++ twoUnits r.losses) (if worn && !r.worn then logged else set)
       else refusedWith tag 3 b)

/-- START SWEEP, SET SWEEP STOP and ABORT SWEEP (R148, R158, R159), while the controller holds the drive, so that the
arbiter has nothing to give: the descriptor, the refusals, and the descriptor reported (R207). Then the track read,
while nothing else of the device is due: the first pass begins at INDEX and takes the sectors without an entry (R150);
each capture has its outcome, and the next target of the first or the second pass follows (R151, R152); after the last
one the track ends, BLOCKED, to be read again, or advanced over worn tracks to stop or to a track that is granted at
once (R153, R154); a failed retry gives the track up (R155). That a job admitted behind the head reads no working
rung, and the drive's recorded ON CYLINDER falling at POSITION, are the model's choices (logs 20 and 7). -/
def Obligations.SweepIsCommanded : Prop :=
  ∀ (dt tag base0 base1 limit0 limit1 first0 first1 stop0 stop1 : Nat) (rate k n : Nat) (field : List Nat) (q : SweepPass)
    (g : Geometry) (c : Capture) (r : HeadRecord) (st : Step) (m : Move) (tr : Travel) (s : State), let b := begin dt s
    (acceptsFrame s = true → NothingDue b → s.drv.holder = .controller →
      let pair := fun (hi lo : Nat) => hi * 4096 + lo
      let base := pair base0 base1
      let limit := pair limit0 limit1
      let first := pair first0 first1
      let stop := pair stop0 stop1
      let reports := fun (w : Sweep) =>
        answered tag 1 ([w.state.code, causeCode w.cause, 0, 0, 0] ++ twoUnits w.base ++ twoUnits w.limit
          ++ twoUnits w.next ++ twoUnits w.stop ++ twoUnits w.tracksRead ++ twoUnits w.tracksSkipped
          ++ twoUnits w.failuresFound) { b with sweep := w }
      let start := exec (.startSweep dt tag base0 base1 limit0 limit1 first0 first1 stop0 stop1) s
      let inRange := decide (base < limit ∧ limit ≤ g.cylinders * g.heads ∧ base ≤ first ∧ first < limit ∧
        base ≤ stop ∧ stop < limit)
      ((s.svc.mode = .passive ∨ s.svc.geometry = none) → start = .next (refusedWith tag 2 b)) ∧
      (s.svc.mode ≠ .passive → s.svc.geometry = some g →
        start = .next
          (if inRange then
            reports ⟨base, limit, first, stop, .waiting, none, false, 0, 0, 0, .reaching, []⟩
           else refusedWith tag 3 b)) ∧
      exec (.setSweepStop dt tag stop0 stop1) s = .next
        (if s.sweep.state = .idle then refusedWith tag 2 b
         else if stop < s.sweep.base ∨ s.sweep.limit ≤ stop then refusedWith tag 3 b
         else
          reports { s.sweep with
            stop := stop
            state := if s.sweep.state = .done then .waiting else s.sweep.state }) ∧
      exec (.abortSweep dt tag) s = .next
        (reports { s.sweep with
          state := .idle, cause := none, refusalMet := false, pass := .reaching, marked := [] })) ∧
    (s.drv.holder = .sweep → s.sweep.state = .sweeping → s.drv.passOn = .stays → s.drv.episode = none →
      s.ctl.withhold = none → restDue b = false → s.svc.geometry = some g →
      (∀ j ∈ s.seq.queue, j.cls = .background) →
      let w := s.sweep
      let track : Nat → Addr := fun i => ⟨w.next / g.heads, w.next % g.heads, i⟩
      let free := fun i : Nat => (entryOf s (track i)).isNone
      let second := fun left : List Nat => match left.dropWhile fun i => !free i with
        | [] => none
        | i :: rest => some (i, SweepPass.second rest)
      let firstFrom := fun i : Nat => (List.range g.sectors).find? fun x => decide (i ≤ x) && free x
      let following := fun marked : List Nat => match w.pass with
        | .first i => (match firstFrom i with | some x => some (x, SweepPass.first (x + 1)) | none => second marked)
        | .second left => second left
        | _ => none
      let succ := fun x : Nat => if x + 1 = w.limit then w.base else x + 1
      let worn := fun x : Nat => s.heads[x % g.heads]?.any HeadRecord.worn
      let passed := ∀ i < n, succ^[i] (succ w.next) ≠ w.stop ∧ worn (succ^[i] (succ w.next)) = true
      let nextTrack := succ^[n] (succ w.next)
      let targets := fun (after : State) (i : Nat) (q : SweepPass) =>
        ({ after with
            sweep.pass := q
            drv.capture := some ⟨.sweep, track i, false, 0⟩
            out := after.out ++ [.order (.targetRead i)] } : State)
      let finished := fun (after : State) (reads skips : Nat) =>
        ({ after with
            drv.holder := .nobody
            sweep := { w with
              next := w.stop, state := .done, cause := none, refusalMet := false, pass := .reaching, marked := []
              tracksRead := min (w.tracksRead + reads) 65535, tracksSkipped := min (w.tracksSkipped + skips) 65535 } } :
          State)
      let measured : State := { b with
        drv.period :=
          if s.drv.lines.ready && s.drv.indexChain then s.drv.lastIndex.map (fun t => b.clock - t) else s.drv.period
        drv.lastIndex := some b.clock
        drv.indexChain := s.drv.lines.ready
        drv.lastRelayed := some b.clock
        out := [.index] }
      (w.pass = .awaitingIndex → s.drv.capture = none → s.drv.step = none → s.drv.travel = none →
        s.drv.condition = .turning →
        (firstFrom 0 = some k → exec (.driveIndex dt) s = .next (targets measured k (.first (k + 1)))) ∧
        (firstFrom 0 = none → w.marked = [] → w.cause = none → w.refusalMet = false → s.seq.queue = [] →
          w.tracksRead ≤ 65535 → w.tracksSkipped ≤ 65535 → succ w.next = w.stop →
          exec (.driveIndex dt) s = .next (finished measured 1 0))) ∧
      (s.drv.capture = some c → c.party = .sweep → c.matched = true → s.drv.readGate = true → s.drv.step = none →
        s.drv.travel = none → s.heads[c.addr.head]? = some r → HeadOk r →
        let a := c.addr
        let f := takeField s.straps field
        let lowered : State := { b with drv.capture := none, drv.readGate := false, out := [.readGate false] }
        let credited : State := { lowered with
          heads := s.heads.set a.head { r with
            score := min (r.score + 1) 200
            cleanReads := min (r.cleanReads + 1) 65535
            worn := if min (r.score + 1) 200 ≤ r.threshold then true
              else if r.threshold + 16 ≤ min (r.score + 1) 200 then false else r.worn } }
        let failing : State := { lowered with sweep.failuresFound := min (w.failuresFound + 1) 65535 }
        let slot := s.log.index % 8
        let refused := fun (cause : BlockCause) =>
          ({ failing with
              sweep.cause := some cause
              sweep.refusalMet := true
              log := ⟨s.log.positions.set slot
                (some ⟨.notAdmitted a, min (b.clock / 1000000) 16777215, s.ctl.recentOrders⟩),
                slot + 1, min (s.log.held + 1) 8, min (s.log.lifetime + 1) 65535⟩ } : State)
        let full := fun (t : State) => exec (.captureFull dt field rate) s = .next t
        let short := fun (t : State) => exec (.readClockTimeout dt) s = .next t
        let marked := match w.pass with | .first _ => w.marked ++ [a.sec] | _ => w.marked
        (following w.marked = some (k, q) →
          (passes s.straps.bits f = true → full (targets credited k q)) ∧
          (passes s.straps.bits f = false →
            ((w.cause.isSome = true ∨ (entryOf s a).isSome = true ∨ s.map.claim.map Claim.addr = some a) →
              full (targets failing k q)) ∧
            (w.cause = none → entryOf s a = none → s.map.claim.map Claim.addr ≠ some a →
              (freeEntries s = 0 → full (targets (refused .fullMap) k q)) ∧
              (0 < freeEntries s → 32 ≤ s.seq.queue.length → full (targets (refused .fullQueue) k q)) ∧
              (0 < freeEntries s → s.seq.queue.length < 32 → jobOf s a = none → k ≠ a.sec →
                let rungs := (ladderOf s (chooseLadder s a)).rungs
                let first := rungs.findIdx fun x => !isWorn s a.head || decide (x.offset = .centre)
                first < rungs.length →
                full (targets
                  { failing with
                    map.entries := insertEntry ⟨a, .sweep, .pending⟩ s.map.entries
                    seq.queue := s.seq.queue ++
                      [⟨a, .background, chooseLadder s a, first, 0, 0, 0, .waiting, none, .sweep, false⟩]
                    seq.workingRung := if s.seq.queue = [] then rungs[first]? else s.seq.workingRung } k q))))) ∧
        (following marked = some (k, q) → short (targets { lowered with sweep.marked := marked } k q)) ∧
        (following marked = none → s.seq.queue = [] → s.svc.mode ≠ .passive → s.drv.condition = .turning →
          s.drv.resting = false → s.drv.lines.fault = false → w.tracksRead ≤ 65535 → w.tracksSkipped ≤ 65535 →
          let lands := fun (x : Nat) => s.drv.record = ⟨some (x / g.heads), some (x % g.heads), some .nominal, some .centre⟩
          (w.cause.isSome = true → short { lowered with
            drv.holder := .nobody, sweep.state := .blocked, sweep.pass := .reaching, sweep.marked := [] }) ∧
          (w.cause = none → w.refusalMet = true → worn w.next = false → lands w.next → short { lowered with
            drv.idle := 0, sweep.refusalMet := false, sweep.pass := .awaitingIndex, sweep.marked := [] }) ∧
          (w.cause = none → w.refusalMet = false → n ≤ w.limit - w.base → passed →
            (nextTrack = w.stop → short (finished lowered 1 n)) ∧
            (nextTrack ≠ w.stop → worn nextTrack = false → lands w.next →
              let moved : State := { lowered with
                drv.idle := 0
                sweep.next := nextTrack
                sweep.tracksRead := min (w.tracksRead + 1) 65535
                sweep.tracksSkipped := min (w.tracksSkipped + n) 65535
                sweep.marked := [] }
              let head := nextTrack % g.heads
              let cyl := nextTrack / g.heads
              (w.next / g.heads = cyl → w.next % g.heads ≠ head → short { moved with
                sweep.pass := .awaitingIndex
                drv.record.head := some head
                out := [.readGate false, .order (.head head)] }) ∧
              (w.next / g.heads ≠ cyl → s.drv.lines.positionError = false → short { moved with
                sweep.pass := .reaching
                drv.record.cyl := none
                drv.lines.onCylinder := false
                drv.step := some ⟨.position cyl, some .reach, b.clock, s.svc.params.positionTimeout * 1000, false⟩
                drv.travel := some ⟨.sweep, cyl, head, .nominal, .centre, [.select, .margin], true, none⟩
                out := [.readGate false, .order (.position cyl)] }))))) ∧
      (s.drv.step = some st → st.move = some m → s.drv.travel = some tr → tr.purpose = .sweep → tr.retry.isSome = true →
        s.drv.capture = none → s.seq.queue = [] → s.svc.mode ≠ .passive → s.drv.condition = .turning →
        s.drv.resting = false → w.tracksSkipped ≤ 65535 → w.tracksRead ≤ 65535 → n ≤ w.limit - w.base → passed →
        (nextTrack = w.stop → exec (.positioningStepFails dt) s = .next
          (finished { b with drv.lines.positionError := true, drv.step := none, drv.travel := none } 0 (n + 1))) ∧
        (nextTrack ≠ w.stop → worn nextTrack = false → ∃ t, exec (.positioningStepFails dt) s = .next t ∧
          t.drv.holder = .sweep ∧ t.sweep.state = .sweeping ∧ t.sweep.next = nextTrack ∧
          t.sweep.tracksRead = w.tracksRead ∧ t.sweep.tracksSkipped = min (w.tracksSkipped + n + 1) 65535 ∧
          t.log = s.log ∧ t.seq = s.seq ∧ t.map = s.map ∧ t.heads = s.heads ∧ t.ctl = s.ctl ∧ t.clock = b.clock)))

/-- QUEUE SECTOR (R52, R196), while the controller holds the drive: refused STATE in PASSIVE mode, RANGE off the
geometry; a sector without an entry gets a PENDING one with origin SERVICE and a BACKGROUND job at the queue's tail,
or FULL; a PENDING one is reported; a LOST one becomes PENDING again and its slot is freed; others are IN USE. The
answer is the state code and the queue's depth afterwards. The job stands at its first rung start: the first rung, on
a worn head the first with offset CENTRE (R92, R94), and is read as the working rung when the job is the head (R90;
for another job not, by log 20). -/
def Obligations.QueueSectorQueues : Prop :=
  ∀ (dt tag u0 u1 : Nat) (g : Geometry) (e : Entry) (s : State), acceptsFrame s = true → let b := begin dt s
    NothingDue b → s.drv.holder = .controller → s.svc.geometry = some g →
    let a : Addr := ⟨u0, u1 / 64, u1 % 64⟩
    let real := decide (a.cyl < g.cylinders ∧ a.head < g.heads ∧ a.sec < g.sectors)
    let after := fun (t : State) => exec (.queueSector dt tag u0 u1) s = .next t
    let depth := s.seq.queue.length
    let rungs := (ladderOf s (chooseLadder s a)).rungs
    let first := rungs.findIdx fun r => !isWorn s a.head || decide (r.offset = .centre)
    let job : Job := ⟨a, .background, chooseLadder s a, first, 0, 0, 0, .waiting, none, .service, false⟩
    let working := if s.seq.queue = [] then rungs[first]? else s.seq.workingRung
    (s.svc.mode = .passive → after (refusedWith tag 2 b)) ∧
    (s.svc.mode ≠ .passive → real = false → after (refusedWith tag 3 b)) ∧
    (s.svc.mode ≠ .passive → real = true →
      (entryOf s a = none → s.map.claim.map Claim.addr ≠ some a →
        ((freeEntries s = 0 ∨ 32 ≤ depth) → after (refusedWith tag 4 b)) ∧
        (0 < freeEntries s → depth < 32 → jobOf s a = none → first < rungs.length →
          after (answered tag 1 [1, depth + 1, 0, 0, 0]
            { b with
              map.entries := insertEntry ⟨a, .service, .pending⟩ s.map.entries
              seq.queue := s.seq.queue ++ [job]
              seq.workingRung := working }))) ∧
      (entryOf s a = some e →
        (e.body.stateCode = 1 → after (answered tag 1 [1, depth, 0, 0, 0] b)) ∧
        ((e.body.stateCode = 2 ∨ e.body.stateCode = 4) → after (refusedWith tag 5 b)) ∧
        (e.body.stateCode = 3 → 32 ≤ depth → after (refusedWith tag 4 b)) ∧
        (e.body.stateCode = 3 → depth < 32 → jobOf s a = none → first < rungs.length →
          after (answered tag 1 [1, depth + 1, 0, 0, 0]
            { b with
              map.entries := s.map.entries.map fun x => if x.addr = a then ⟨a, .service, .pending⟩ else x
              map.store := s.map.store.filter fun x => decide (some x.1 ≠ e.body.slot?)
              seq.queue := s.seq.queue ++ [job]
              seq.workingRung := working }))))

/-- RELEASE ENTRY (R54, R196), while the controller holds the drive: STATE without a geometry, RANGE off it, NOT FOUND
without an entry; else the entry leaves the map and its slot the store, a waiting job that is not the head is cancelled
(R80), and the sweep is notified (R157). -/
def Obligations.ReleaseEntryReleases : Prop :=
  ∀ (dt tag u0 u1 : Nat) (g : Geometry) (e : Entry) (s : State), acceptsFrame s = true → let b := begin dt s
    NothingDue b → s.drv.holder = .controller →
    let a : Addr := ⟨u0, u1 / 64, u1 % 64⟩
    let real := decide (a.cyl < g.cylinders ∧ a.head < g.heads ∧ a.sec < g.sectors)
    let after := fun (t : State) => exec (.releaseEntry dt tag u0 u1) s = .next t
    (s.svc.geometry = none → after (refusedWith tag 2 b)) ∧
    (s.svc.geometry = some g → real = false → after (refusedWith tag 3 b)) ∧
    (s.svc.geometry = some g → real = true → entryOf s a = none → after (refusedWith tag 6 b)) ∧
    (s.svc.geometry = some g → real = true → entryOf s a = some e → (headJob s).map Job.addr ≠ some a →
      after (answered tag 1 [0, 0, 0, 0, 0]
        { b with
          map.entries := s.map.entries.filter fun x => decide (x.addr ≠ a)
          map.store := s.map.store.filter fun x => decide (some x.1 ≠ e.body.slot?)
          seq.queue := s.seq.queue.filter fun x => decide (x.addr ≠ a)
          eng.inFlight := s.eng.inFlight.map fun v =>
            if v.owner = a ∧ (jobOf s a).isSome = true then { v with discard := true } else v
          eng.waiting := s.eng.waiting.map fun v =>
            if v.owner = a ∧ (jobOf s a).isSome = true then { v with discard := true } else v
          sweep.state := if s.sweep.state = .blocked then .waiting else s.sweep.state
          sweep.cause :=
            if s.sweep.state = .blocked ∨ s.sweep.state = .sweeping then none else s.sweep.cause }))

/-- IMPORT PAGE (R44, R53, R197): without a geometry STATE; page 0 begins a staging image, page 1 goes on with it and
page 2 completes it, each placing its words packed as a slot packs them (R7); a page that is not the one expected, for
the sector expected, is INCOMPLETE, and a completed image that fails the check CHECK FAIL. By R53's rows, a sector
without an entry gets a RECOVERED one, method IMPORTED, in the lowest free slot, or FULL; a PENDING one becomes
RECOVERED with its job's counts, and the job is cancelled (R80); a LOST or RECOVERED one has the image written over
its own and keeps its counts and origin; an OVERLAY is IN USE. -/
def Obligations.ImportPagesBuild : Prop :=
  ∀ (dt tag u0 u1 page k : Nat) (us : List Nat) (g : Geometry) (st : Staging) (e : Entry) (j : Job) (rest : List Job)
    (s : State), acceptsFrame s = true → let b := begin dt s
    NothingDue b → us.length = s.straps.data - 8 → (∀ u ∈ us, u < 4096) →
    let a : Addr := ⟨u0, u1 / 64, u1 % 64⟩
    let real := decide (a.cyl < g.cylinders ∧ a.head < g.heads ∧ a.sec < g.sectors)
    let after := fun (t : State) => exec (.importPage dt tag u0 u1 page us) s = .next t
    let dropped : State := { b with map.staging := none }
    let expected := decide (st.addr = a ∧ st.nextPage = page)
    let packed := fun us : List Nat => packImage s.straps.bits (assemble s.straps.bits us)
    let image := unpackImage s.straps.bits (s.straps.data + 1) (st.image ++ packed (us.take 18))
    let filled := fun (k reads : Nat) (weak : Option Nat) =>
      ({ dropped with
          map.entries := s.map.entries.map fun x =>
            if x.addr = a then { x with body := .settled (.recovered .imported) reads weak k } else x
          map.store := putSlot k (packImage s.straps.bits image) s.map.store } : State)
    (s.svc.geometry = none → after (refusedWith tag 2 dropped)) ∧
    (s.svc.geometry = some g →
      ((2 < page ∨ real = false) → after (refusedWith tag 3 dropped)) ∧
      (real = true → page = 0 →
        after (answered tag 1 [1, 0, 0, 0, 0] { b with map.staging := some ⟨a, 1, us, packed us⟩ })) ∧
      (real = true → 1 ≤ page → page ≤ 2 →
        (s.map.staging = none → after (refusedWith tag 9 dropped)) ∧
        (s.map.staging = some st → expected = false → after (refusedWith tag 9 dropped)) ∧
        (s.map.staging = some st → expected = true → page = 1 →
          after (answered tag 1 [2, 0, 0, 0, 0]
            { b with map.staging := some ⟨a, 2, st.units ++ us, st.image ++ packed us⟩ })) ∧
        (s.map.staging = some st → expected = true → page = 2 →
          (passes s.straps.bits image = false → after (refusedWith tag 7 dropped)) ∧
          (passes s.straps.bits image = true →
            (entryOf s a = none → (freeEntries s = 0 ∨ freeSlots s = 0) → after (refusedWith tag 4 dropped)) ∧
            (entryOf s a = none → s.map.claim = none → 0 < freeEntries s → 0 < freeSlots s →
              after (answered tag 1 [0, freeSlot s, 0, 0, 0]
                { dropped with
                  map.entries := insertEntry ⟨a, .service, .settled (.recovered .imported) 0 none (freeSlot s)⟩
                    s.map.entries
                  map.store := putSlot (freeSlot s) (packImage s.straps.bits image) s.map.store })) ∧
            (entryOf s a = some e → e.body.stateCode = 4 → after (refusedWith tag 5 dropped)) ∧
            (entryOf s a = some e → (e.body.stateCode = 2 ∨ e.body.stateCode = 3) → e.body.slot? = some k →
              after (answered tag 1 [0, k, 0, 0, 0] (filled k (entryCounts s e).1 (entryCounts s e).2))) ∧
            (entryOf s a = some e → e.body = .pending → s.map.claim = none → jobOf s a = some j →
              s.sweep.state ≠ .blocked →
              let cancelled : State :=
                { filled (freeSlot s) j.readsSpent j.lastWeak with
                  eng := ⟨s.eng.inFlight.map fun v => if v.owner = a then { v with discard := true } else v,
                    s.eng.waiting.map fun v => if v.owner = a then { v with discard := true } else v⟩
                  sweep.cause := if s.sweep.state = .sweeping then none else s.sweep.cause }
              ((headJob s).map Job.addr ≠ some a →
                after (answered tag 1 [0, freeSlot s, 0, 0, 0]
                  { cancelled with seq.queue := s.seq.queue.filter fun x => decide (x.addr ≠ a) })) ∧
              (s.seq.queue = j :: rest → (∀ x ∈ rest, x.addr ≠ a) → s.drv.holder = .controller →
                after (answered tag 1 [0, freeSlot s, 0, 0, 0] { cancelled with seq := ⟨rest, [], none, none⟩ })))))))

/-- The commands that report the tables, the heads and the log (R175, R194, R195) change nothing but the held
response, whose records are those of R206 and R209. -/
def Obligations.TablesAreReported : Prop :=
  ∀ (dt tag k : Nat) (i : Incident) (s : State), acceptsFrame s = true → let b := begin dt s
    let lad := s.tables.ladders.getD k Ladder.empty
    let flag := fun x : Bool => if x then 1 else 0
    let pair := fun v : Nat => [v / 4096, v % 4096]
    let strobe := fun x : Strobe => match x with | .early => 0 | .nominal => 1 | .late => 2
    let offset := fun x : Offset => match x with | .inward => 0 | .centre => 1 | .outward => 2
    let rungUnits := fun x : Rung =>
      [strobe x.strobe * 256 + offset x.offset * 16 + x.reads,
        flag x.restoreFirst * 2048 + flag x.resetCopies * 1024 + flag x.voteAfter * 512 +
          match x.onFailure with | .cont => 0 | .skip => 1 | .stop => 2]
    let zone := fun x : Option Zone => match x with
      | none => [0, 0, 0]
      | some ⟨none, low, high, ladder⟩ => [2048 + 1024 + ladder, low, high]
      | some ⟨some head, low, high, ladder⟩ => [2048 + head * 16 + ladder, low, high]
    let headUnits := fun x : HeadRecord =>
      [flag x.worn * 2048 + x.score, x.threshold,
        x.cleanReads / 4096 * 256 + x.recoveries / 4096 * 16 + x.losses / 4096,
        x.cleanReads % 4096, x.recoveries % 4096, x.losses % 4096]
    let order := fun x : OrderRecord =>
      (match x.order with
        | .position c => [1, c]
        | .head h => [2, h]
        | .ret => [3, 0xFFF]
        | .margin st off => [4, strobe st * 16 + offset off]
        | .targetRead k => [5, k]
        | .targetWrite k => [6, k]
        | .clear => [7, 0xFFF]) ++ pair x.time
    let kind := match i.kind with
      | .jobLost kind a ladder rung reads weak =>
        [match kind with | .unrecovered => 1 | .ambiguous => 2 | .positionFailure => 3,
          a.cyl, a.head * 64 + a.sec, ladder, rung, reads] ++
          match weak with | some w => pair w | none => [0xFFF, 0xFFF]
      | .driveLost => [4, 0xFFF, 0xFFF, 0xFFF, 0xFFF, 0xFFF, 0xFFF, 0xFFF]
      | .headWorn h => [5, 0xFFE, h * 64, 0xFFF, 0xFFF, 0xFFF, 0xFFF, 0xFFF]
      | .notAdmitted a => [6, a.cyl, a.head * 64 + a.sec, 0xFFF, 0xFFF, 0xFFF, 0xFFF, 0xFFF]
    let incident := kind ++ pair i.time ++ [i.orders.length] ++ i.orders.flatMap order
    exec (.readLadder dt tag k) s = .next
      (if k ≤ 7 then
        answered tag 1 ([k, lad.m, lad.l, lad.budget, lad.rungs.length] ++ lad.rungs.flatMap rungUnits) b
       else refusedWith tag 3 b) ∧
    exec (.readZones dt tag) s = .next
      (answered tag 1 ([0, 0, 0, 0, 0] ++ s.tables.zones.flatMap zone) b) ∧
    exec (.readHealth dt tag k) s = .next
      (if k ≤ 1 then
        answered tag 1 ([k, 0, 0, 0, 0] ++ ((s.heads.drop (8 * k)).take 8).flatMap headUnits) b
       else refusedWith tag 3 b) ∧
    ((k = 0 ∨ 8 < k) → exec (.readLog dt tag k) s = .next (refusedWith tag 3 b)) ∧
    (1 ≤ k → k ≤ 8 → s.log.held < k → exec (.readLog dt tag k) s = .next (refusedWith tag 6 b)) ∧
    (1 ≤ k → k ≤ s.log.held → s.log.held ≤ 8 →
      s.log.positions[if k ≤ s.log.index then s.log.index - k else s.log.index + 8 - k]? = some (some i) →
      s.log.index ≤ 8 → s.log.positions.length = 8 → i.orders.length ≤ 4 →
      exec (.readLog dt tag k) s = .next
        (answered tag 1 ([k, s.log.held] ++ twoUnits s.log.lifetime ++ [0] ++ incident) b))

/-- READ QUEUE, READ MAP and EXPORT PAGE (R56, R198 to R200) change nothing but the held response: the jobs from a
position, the entries from an address in map order, both as R204 and R209 lay them out, and a page of an image. -/
def Obligations.MapAndQueueAreReported : Prop :=
  ∀ (dt tag n u0 u1 : Nat) (g : Geometry) (e : Entry) (s : State), acceptsFrame s = true → let b := begin dt s
    let room := (s.straps.data - 8) / 4
    let depth := s.seq.queue.length
    let a : Addr := ⟨u0, u1 / 64, u1 % 64⟩
    let real := decide (a.cyl < g.cylinders ∧ a.head < g.heads ∧ a.sec < g.sectors)
    let jobs := s.seq.queue.drop (n - 1)
    let found := s.map.entries.filter fun x => !x.addr.lt a
    let shown := found.take room
    let origin := fun x : Origin => match x with | .controller => 0 | .sweep => 1 | .service => 2
    let weak := fun (most : Nat) (w : Option Nat) => match w with | some w => min w most | none => most + 1
    let job := fun x : Job =>
      [x.addr.cyl * 4 + (match x.state with | .waiting => 0 | .active => 1 | .voting => 2),
        x.addr.head * 256 + x.addr.sec * 4 + origin x.origin,
        x.readsSpent * 16 + (match x.cls with | .foreground => 0 | .background => 1) * 8 + weak 6 x.lastWeak,
        x.ladder * 512 + x.rungIndex * 16 + x.readsDone * 2 + x.positionFailures]
    let entry := fun x : Entry =>
      let counts := match x.body with
        | .settled _ reads weak _ => (reads, weak)
        | .pending => ((jobOf s x.addr).map fun j : Job => (j.readsSpent, j.lastWeak)).getD (0, none)
      let condition := match x.body with
        | .pending => 0
        | .settled .lost _ _ _ => 1
        | .settled .overlay _ _ _ => 2
        | .settled (.recovered .clean) _ _ _ => 3
        | .settled (.recovered .vote) _ _ _ => 4
        | .settled (.recovered .imported) _ _ _ => 5
        | .settled (.recovered (.search flips)) _ _ _ => 5 + flips
      [x.addr.cyl * 4 + weak 14 counts.2 / 4, x.addr.head * 256 + x.addr.sec * 4 + origin x.origin,
        condition * 256 + counts.1, (x.body.slot?.getD 0) * 4 + weak 14 counts.2 % 4]
    ((n = 0 ∨ 32 < n) → exec (.readQueue dt tag n) s = .next (refusedWith tag 3 b)) ∧
    (1 ≤ n → n ≤ 32 → exec (.readQueue dt tag n) s = .next
      (if depth < n then refusedWith tag 6 b
       else
        answered tag 1 ([(jobs.take room).length, depth,
            if jobs.length ≤ room then 4095 else n + (jobs.take room).length, 0, 0]
          ++ (jobs.take room).flatMap job) b)) ∧
    (s.svc.geometry = none →
      exec (.readMap dt tag u0 u1) s = .next (refusedWith tag 2 b) ∧
      exec (.exportPage dt tag u0 u1 n) s = .next (refusedWith tag 2 b)) ∧
    (s.svc.geometry = some g →
      (real = false →
        exec (.readMap dt tag u0 u1) s = .next (refusedWith tag 3 b) ∧
        exec (.exportPage dt tag u0 u1 n) s = .next (refusedWith tag 3 b)) ∧
      (real = true →
        (found.length ≤ room → exec (.readMap dt tag u0 u1) s = .next
          (answered tag 1 ([shown.length, 0, 4095, 4095, 0] ++ shown.flatMap entry) b)) ∧
        (room < found.length → (shown.getLast?).map Entry.addr = some e.addr → g.successor e.addr ≠ none →
          let next := (g.successor e.addr).getD a
          exec (.readMap dt tag u0 u1) s = .next
            (answered tag 1 ([shown.length, 1, next.cyl, next.head * 64 + next.sec, 0]
              ++ shown.flatMap entry) b)) ∧
        (2 < n → exec (.exportPage dt tag u0 u1 n) s = .next (refusedWith tag 3 b)) ∧
        (n ≤ 2 → (entryOf s a = none ∨ entryOf s a = some ⟨a, e.origin, .pending⟩) →
          exec (.exportPage dt tag u0 u1 n) s = .next (refusedWith tag 6 b)) ∧
        (n ≤ 2 → entryOf s a = some e → e.body ≠ .pending →
          let units := (readSlot s (e.body.slot?.getD 0)).flatMap fun w => [w / 4096, w % 4096]
          exec (.exportPage dt tag u0 u1 n) s = .next
            (answered tag 1 ([e.body.stateCode, e.body.methodCode, n, 0, 0]
              ++ (units.drop (n * (s.straps.data - 8))).take (if n = 2 then 18 else s.straps.data - 8)) b))))

/-- CLEAR LOG (R176): every position is emptied, index and held count are 0, the lifetime count is kept and nothing else
changes; the next incident after it is written at position 1. -/
def Obligations.ClearLogClears : Prop :=
  ∀ (dt tag : Nat) (next : IncidentKind) (s : State), acceptsFrame s = true → s.log.positions.length = 8 →
    let b := begin dt s
    let t := answered tag 1 [s.log.lifetime / 4096, s.log.lifetime % 4096, 0, 0, 0]
      { b with log := ⟨List.replicate 8 none, 0, 0, s.log.lifetime⟩ }
    exec (.clearLog dt tag) s = .next t ∧
      (logIncident next t).log.index = 1 ∧
      (logIncident next t).log.positions =
        some ⟨next, min (b.clock / 1000000) 16777215, s.ctl.recentOrders⟩ :: List.replicate 7 none

/-- The four mode commands (R22, R185 to R188), with the view on V as a service write has it. ACTIVATE needs PASSIVE
mode and a geometry, CAPTIVE ON ACTIVE mode, CAPTIVE OFF CAPTIVE mode, PASSIVATE any but PASSIVE; each is refused
STATE elsewhere. ACTIVATE leaves the holder as PASSIVE mode left it (R136): CONTROLLER, or NONE, or a party whose last
step is still in flight, and then it finds an empty queue and an IDLE sweep (R188), so that the arbiter has nothing to
grant. PASSIVATE cancels every job, makes the sweep IDLE, and ends rest (R55, R81, R118, R145, R159); a holder of
RECOVERY or SWEEP gives up the drive, its capture abandoned: it is NONE at once, or stays until the step in flight has
ended (R134, R136; the step's end is in `StepsEnd`). The withholding record is empty then (R189). That ACTIVATE keeps
the orders held behind a relayed step, that no CLEAR follows it to a LOST drive with READY and FAULT standing, that a
taking by the controller which waits for the same step stands at PASSIVATE, and that a fault episode ends there
without judgement, are the model's choices (logs 49, 18, 59 and 60). -/
def Obligations.ModesChange : Prop :=
  ∀ (dt tag : Nat) (s : State), acceptsFrame s = true → let b := begin dt s
    s.ctl.cyl = serviceCylinder s →
    (NothingDue b →
      (s.svc.mode = .passive → s.drv.holder ≠ .controller → s.seq.queue = [] ∧ s.sweep.state = .idle) →
      exec (.activate dt tag) s = .next
        (if s.svc.mode = .passive ∧ s.svc.geometry ≠ none then
          answered tag 1 [1, 0, 0, 0, 0] { b with svc.mode := .active, ctl.shownOnCylinder := true }
         else refusedWith tag 2 b)) ∧
    exec (.captiveOn dt tag) s = .next
      (if s.svc.mode = .active then answered tag 1 [2, 0, 0, 0, 0] { b with svc.mode := .captive }
       else refusedWith tag 2 b) ∧
    exec (.captiveOff dt tag) s = .next
      (if s.svc.mode = .captive then answered tag 1 [1, 0, 0, 0, 0] { b with svc.mode := .active }
       else refusedWith tag 2 b) ∧
    (s.svc.mode = .passive → NothingDue b → exec (.passivate dt tag) s = .next (refusedWith tag 2 b)) ∧
    (s.svc.mode ≠ .passive →
      let kept : State :=
        { b with
          svc.mode := .passive
          map.entries := s.map.entries.filter fun e => e.body.slot?.isSome
          seq := ⟨[], [], none, none⟩
          eng.inFlight := s.eng.inFlight.map fun v => { v with discard := true }
          eng.waiting := s.eng.waiting.map fun v => { v with discard := true }
          sweep.state := .idle, sweep.cause := none, sweep.refusalMet := false
          sweep.pass := .reaching, sweep.marked := []
          drv.work := 0, drv.idle := 0, drv.resting := false }
      let done := fun (t : State) => exec (.passivate dt tag) s = .next
        (answered tag 1 [0, s.seq.queue.length, 0, 0, 0] t)
      (s.drv.holder.isDevice = false → NothingDue b → done kept) ∧
      (s.drv.holder.isDevice = true → s.ctl.withhold = none →
        (s.drv.capture.all fun c => decide (c.party ≠ .live)) = true →
        let dropped : State :=
          { kept with
            drv.travel := none
            drv.episode := none
            drv.capture := none
            drv.readGate := s.drv.readGate && s.drv.capture.isNone
            out := if s.drv.readGate && s.drv.capture.isSome then [.readGate false] else [] }
        (s.drv.step = none → s.drv.passOn = .stays → done { dropped with drv.holder := .nobody }) ∧
        (s.drv.step ≠ none →
          done { dropped with drv.passOn := if s.drv.passOn = .stays then .toNobody else s.drv.passOn })))

/-! ### The drive, the captures and the timers -/

/-- A live read's capture ends (R12, R13, R33) while the controller holds the drive. Full, it is relayed and gives the
served rate; a field that passes credits its head (R163) and in ACTIVE mode gives a LOST entry the image and ends the
job of a PENDING one RECOVERED by CLEAN (R48, R77, R78); one that fails debits its head (R164) and in ACTIVE mode
makes an unmapped sector PENDING with a FOREGROUND job at its first rung start (R90, R92, R94). SHORT, nothing more.
That the field is listed whole at its end is the model's choice (log 39), and the working rung of the admitted job,
alone in the queue, is read at once (R90). -/
def Obligations.LiveCapturesEnd : Prop :=
  ∀ (dt rate k : Nat) (field : List Nat) (c : Capture) (j : Job) (r : HeadRecord) (e : Entry) (s : State), let b := begin dt s
    s.drv.capture = some c → c.party = .live → c.matched = true → s.drv.readGate = true →
    ControllerHas b → awaitsDrive s = false → s.heads[c.addr.head]? = some r → HeadOk r →
    let a := c.addr
    let f := takeField s.straps field
    let worn := fun (sc : Nat) => if sc ≤ r.threshold then true else if r.threshold + 16 ≤ sc then false else r.worn
    let relayed : State := { b with drv.capture := none, ctl.servedRate := some rate, out := [.relay f] }
    let credited : State :=
      { relayed with heads := s.heads.set a.head { r with
          score := min (r.score + 1) 200
          cleanReads := min (r.cleanReads + 1) 65535
          worn := worn (min (r.score + 1) 200) } }
    let debited : State :=
      { relayed with heads := s.heads.set a.head { r with score := r.score - 2, worn := worn (r.score - 2) } }
    let slot := s.log.index % 8
    let noted : State := if worn (r.score - 2) && !r.worn then
      { debited with log := {
          positions := s.log.positions.set slot
            (some ⟨.headWorn a.head, min (b.clock / 1000000) 16777215, s.ctl.recentOrders⟩)
          index := slot + 1
          held := min (s.log.held + 1) 8
          lifetime := min (s.log.lifetime + 1) 65535 } }
      else debited
    let rungs := (ladderOf s (chooseLadder s a)).rungs
    let first := rungs.findIdx fun g => !worn (r.score - 2) || decide (g.offset = .centre)
    let full := fun (t : State) => exec (.captureFull dt field rate) s = .next t
    (passes s.straps.bits f = true →
      (s.svc.mode = .passive → full credited) ∧
      (s.svc.mode ≠ .passive → entryOf s a = none → full credited) ∧
      (s.svc.mode ≠ .passive → entryOf s a = some e → e.body.stateCode = 3 → e.body.slot? = some k →
        full { credited with
          map.entries := s.map.entries.map fun x =>
            if x.addr = a then
              { x with body := .settled (.recovered .clean) (entryCounts s e).1 (entryCounts s e).2 k }
            else x
          map.store := putSlot k (packImage s.straps.bits f) s.map.store }) ∧
      (s.svc.mode ≠ .passive → entryOf s a = some e → e.body = .pending → jobOf s a = some j →
        (headJob s).map Job.addr ≠ some a → s.map.claim = none → s.sweep.state = .idle → r.worn = false →
        r.threshold < min (r.score + 1) 200 - min j.readsSpent 15 →
        full { relayed with
          map.entries := s.map.entries.map fun x =>
            if x.addr = a then { x with body := .settled (.recovered .clean) j.readsSpent j.lastWeak (freeSlot s) } else x
          map.store := putSlot (freeSlot s) (packImage s.straps.bits f) s.map.store
          heads := s.heads.set a.head { r with
            score := min (r.score + 1) 200 - min j.readsSpent 15
            cleanReads := min (r.cleanReads + 1) 65535
            recoveries := min (r.recoveries + 1) 65535 }
          seq.queue := s.seq.queue.filter fun x => decide (x.addr ≠ a)
          eng.inFlight := s.eng.inFlight.map fun v => if v.owner = a then { v with discard := true } else v
          eng.waiting := s.eng.waiting.map fun v => if v.owner = a then { v with discard := true } else v })) ∧
    (passes s.straps.bits f = false →
      (s.svc.mode = .passive → full noted) ∧
      (s.svc.mode ≠ .passive → entryOf s a = some e → full noted) ∧
      (s.svc.mode ≠ .passive → entryOf s a = none → s.map.claim = none → 0 < freeEntries s → s.seq.queue = [] →
        first < rungs.length →
        full { noted with
          map.entries := insertEntry ⟨a, .controller, .pending⟩ s.map.entries
          seq.queue := [⟨a, .foreground, chooseLadder s a, first, 0, 0, 0, .waiting, none, .controller, false⟩]
          seq.workingRung := rungs[first]? })) ∧
    exec (.readClockTimeout dt) s = .next { b with drv.capture := none }

/-- A recovery read's capture ends (R12, R13, R67) with its job ACTIVE at the queue's head. A field that passes ends
the job RECOVERED by CLEAN (R46, R77, R165), the sector's image in the lowest free slot, and a withheld read of it is
served after a MATCH 1 ms later (R37); one that fails joins the copies, a SHORT one does not, both are charged; then
the rung's next read is made (R97) or, after its last, the vote it asks for (R71, R98), which waits where the engine
is still RUNNING an earlier one (R105), or the failure action (R99): the next rung, or the one after it by SKIP,
begins. The read budget reached, END, or no rung left ends the job LOST (R79) with its best image, the last vote
result, else the newest copy, else zeros (R47, R68). The withholding report's duration is cut to whole milliseconds,
by the model's choice (log 48). -/
def Obligations.RecoveryReadsEnd : Prop :=
  ∀ (dt rate : Nat) (field : List Nat) (c : Capture) (j : Job) (rest : List Job) (g next : Rung) (r : HeadRecord)
    (e : Entry) (w : Withhold) (s : State), let b := begin dt s
    s.drv.capture = some c → c.party = .recovery → c.matched = true → s.drv.readGate = true → c.addr = j.addr →
    s.seq.queue = j :: rest → (∀ x ∈ rest, x.addr ≠ j.addr) → j.state = .active → s.seq.workingRung = some g →
    s.drv.holder = .recovery → s.drv.step = none → s.drv.travel = none → s.drv.episode = none → s.drv.passOn = .stays →
    restDue b = false → s.heads[j.addr.head]? = some r →
    let a := j.addr
    let f := takeField s.straps field
    let lad := s.tables.ladders.getD j.ladder Ladder.empty
    let budget := if r.worn then max 1 (lad.budget / 2) else lad.budget
    let charged : Job := { j with readsSpent := j.readsSpent + 1, readsDone := j.readsDone + 1 }
    let copies := (s.seq.copies ++ [f]).drop (s.seq.copies.length + 1 - 7)
    let lowered : State := { b with drv.readGate := false, drv.capture := none, out := [.readGate false] }
    let reads := fun (job : Job) (copies : List Field) (rung : Rung) => Host.Outcome.next (φ := Fault) (ρ := Refusal)
      { lowered with
        seq.queue := job :: rest
        seq.copies := copies
        seq.workingRung := some rung
        drv.capture := some ⟨.recovery, a, false, 0⟩
        out := [.readGate false, .order (.targetRead a.sec)] }
    let ended := fun (t : State) => ({ t with seq := ⟨[], [], none, none⟩, drv.holder := .nobody } : State)
    let lost := fun (job : Job) (newest : Option Field) => Host.Outcome.next (φ := Fault) (ρ := Refusal)
      (ended (lostAs (if j.lastAmbiguous then .ambiguous else .unrecovered) job r (s.seq.lastVote.or newest) lowered))
    let score := r.score - min (j.readsSpent + 1) 15
    let full := exec (.captureFull dt field rate) s
    let short := exec (.readClockTimeout dt) s
    let rungs := lad.rungs
    let i := if g.onFailure = .skip then min (j.rungIndex + 2) 16 else j.rungIndex + 1
    let moved : Job := { charged with rungIndex := i, readsDone := 0 }
    (s.ctl.withhold = none → j.readsDone + 1 < g.reads → j.readsSpent + 1 < budget →
      (passes s.straps.bits f = false → full = reads charged copies g) ∧ short = reads charged s.seq.copies g) ∧
    (s.ctl.withhold = none → j.readsDone + 1 = g.reads → g.voteAfter = true → 1 ≤ s.seq.copies.length →
      passes s.straps.bits f = false →
      full = .next { lowered with
        seq.queue := { charged with state := .voting } :: rest
        seq.copies := copies
        eng := match s.eng.inFlight with
          | none => ⟨some (startVote s.straps a ⟨copies, lad.m, lad.l⟩ false), s.eng.waiting⟩
          | some v => ⟨some v, some ⟨a, ⟨copies, lad.m, lad.l⟩, false⟩⟩ }) ∧
    (s.ctl.withhold = none → j.readsDone + 1 = g.reads → g.onFailure ≠ .stop → rungs[i]? = some next →
      (r.worn = false ∨ next.offset = .centre) → next.restoreFirst = false → 0 < next.reads → j.readsSpent + 1 < budget →
      s.drv.record = ⟨some a.cyl, some a.head, some next.strobe, some next.offset⟩ →
      ((g.voteAfter = false ∨ s.seq.copies = []) → passes s.straps.bits f = false →
        full = reads moved (if next.resetCopies then [] else copies) next) ∧
      ((g.voteAfter = false ∨ s.seq.copies.length < 2) →
        short = reads moved (if next.resetCopies then [] else s.seq.copies) next)) ∧
    (rest = [] → s.sweep.state = .idle → entryOf s a = some e → e.body = .pending → s.map.claim = none →
      (s.ctl.withhold = none → j.readsDone + 1 < g.reads → budget ≤ j.readsSpent + 1 →
        (passes s.straps.bits f = false → full = lost charged (some f)) ∧
        short = lost charged s.seq.copies.getLast?) ∧
      (s.ctl.withhold = none → j.readsDone + 1 = g.reads → (g.onFailure = .stop ∨ rungs.length ≤ i) →
        let last : Job := if g.onFailure = .stop then charged else moved
        ((g.voteAfter = false ∨ s.seq.copies = []) → passes s.straps.bits f = false → full = lost last (some f)) ∧
        ((g.voteAfter = false ∨ s.seq.copies.length < 2) → short = lost last s.seq.copies.getLast?)) ∧
      (passes s.straps.bits f = true → score > r.threshold → r.worn = false →
        let recovered : State := ended { lowered with
          map.entries := s.map.entries.map fun x =>
            if x.addr = a then
              { x with body := .settled (.recovered .clean) (j.readsSpent + 1) j.lastWeak (freeSlot s) }
            else x
          map.store := putSlot (freeSlot s) (packImage s.straps.bits f) s.map.store
          heads := s.heads.set a.head { r with score := score, recoveries := min (r.recoveries + 1) 65535 } }
        (s.ctl.withhold = none → full = .next recovered) ∧
        (s.ctl.withhold = some w → w.addr = a → full = .next (servedNext a (reported .recovered w recovered)))))

/-- MATCH and the generated marks (R12, R17, R26, R128, R183): the drive's MATCH is relayed to a live operation, or
raises READ GATE for a device party's capture; the mark generator's MATCH brings a served or service operation to its
gate, with the status frame of service sector 1 built as the state stands, unit by unit as R208 lays it out; its INDEX
is driven on schedule. Data and its clock pass to the controller for a live read in transfer alone, and never while
RECOVERY or SWEEP holds the drive (R16, R17). A generated mark begins at its due instant, and the units of an absent
withholding report are 0 for its kind and 0xFFF for its duration, by the model's choices (logs 2 and 38). -/
def Obligations.MarksArrive : Prop :=
  ∀ (dt due : Nat) (data clock : Bool) (o : Op) (c : Capture) (s : State), let b := begin dt s
    (relayedReadLines data clock s =
      if (s.ctl.op.any fun o => decide (o.kind = .liveRead ∧ o.phase = .transferring)) = true ∧
          s.drv.holder ≠ .recovery ∧ s.drv.holder ≠ .sweep then (data, clock)
      else (false, false)) ∧
    (s.drv.capture = some c → c.party ≠ .live → c.matched = false →
      exec (.driveMatch dt) s = .next
        { b with drv.capture := some { c with matched := true }, drv.readGate := true, out := [.readGate true] }) ∧
    (s.ctl.op = some o → o.phase = .awaitingMatch →
      (o.kind = .liveRead → s.drv.capture = some c → c.party = .live → c.matched = false →
        exec (.driveMatch dt) s = .next
          { b with
            drv.capture := some { c with matched := true }
            ctl.op := some { o with phase := .awaitingGate }
            out := [.matchPulse] }) ∧
      (o.kind = .liveWrite → s.drv.capture = none →
        exec (.driveMatch dt) s = .next
          { b with ctl.op := some { o with phase := .awaitingGate }, out := [.matchPulse] })) ∧
    (s.ctl.op = some o → o.matchDue = some due →
      let now := beginAt due s
      let pair := fun v : Nat => [v / 4096, v % 4096]
      let address := fun a : Option Addr => match a with
        | some a => [a.cyl, a.head * 64 + a.sec]
        | none => [0xFFF, 0xFFF]
      let head := s.seq.queue.head?.filter fun j => decide (j.state ≠ .waiting)
      let status : List Nat :=
        [0x5C5, 0x240,
          match s.svc.mode with | .passive => 0 | .active => 1 | .captive => 2,
          match s.drv.condition with | .lost => 0 | .turning => 1,
          match s.drv.holder with | .nobody => 0 | .controller => 1 | .recovery => 2 | .sweep => 3,
          if s.drv.resting then 1 else 0,
          match s.sweep.state with | .idle => 0 | .waiting => 1 | .sweeping => 2 | .blocked => 3 | .done => 4,
          match s.sweep.cause with | none => 0 | some .fullQueue => 1 | some .fullMap => 2]
        ++ pair s.sweep.next ++ pair s.sweep.tracksRead ++ pair s.sweep.tracksSkipped ++ pair s.sweep.failuresFound
        ++ [s.seq.queue.length, s.map.entries.length, freeSlots s, s.log.index] ++ pair s.log.lifetime
        ++ address (head.map Job.addr) ++ address (s.ctl.report.map WithholdReport.addr)
        ++ match s.ctl.report with
          | none => [0, 0xFFF]
          | some r =>
            [match r.kind with
              | .recovered => 1 | .lost => 2 | .limit => 3 | .positionFailure => 4
              | .rest => 5 | .order => 6 | .driveLost => 7 | .reseatFailed => 8,
              r.duration]
      exec .generatedMatch s = .next
        { now with
          ctl.op := some { o with
            phase := .awaitingGate
            matchDue := none
            built := if o.kind = .serviceRead ∧ o.addr.head = 0 ∧ o.addr.sec = 1 then
              some (frameField s.straps status) else none }
          out := [.matchPulse] }) ∧
    (s.drv.genNext = some due →
      exec .generatedIndex s = .next
        { beginAt due s with drv.genNext := some (due + s.drv.genPeriod), out := [.index] })

/-- The drive's INDEX and levels, with no capture in flight and no track read awaiting INDEX. INDEX is relayed while
TURNING and measures the period between two INDEXes seen with READY true; while LOST the second one seen with READY
true and FAULT low makes the drive TURNING (R26, R124). READY falling ends the counts of INDEXes, and of a LOST drive
does no more (R124; a TURNING one is judged LOST, `DriveIsJudgedLost`). READY rising arms the one CLEAR of a LOST
drive (R124). FAULT rising shows FAULT for a live operation, or in PASSIVE mode off V (R25); under RECOVERY or SWEEP
it begins an episode (R125): the capture is abandoned, a step in flight ends as failed, and one CLEAR is issued. FAULT
falling ends it: the head job reads on, the sweep begins its track again (R156), a step that failed is retried (R138).
Shown READY and shown PROTECT are the drive's lines in PASSIVE mode, so that they follow them there; else READY is
shown true and PROTECT exactly while no entry or no slot is free (R24, R42). That PASSIVE mode and rest use the CLEAR
up, that it is issued also while CONTROLLER holds the drive, and the drive's recorded lines after CLEAR and RETURN,
are the model's choices (logs 18, 53 and 7). -/
def Obligations.DriveLinesAreSeen : Prop :=
  ∀ (dt : Nat) (level : Bool) (x : Episode) (j : Job) (rest : List Job) (g : Rung) (m : Move)
    (t : Travel) (s : State), let b := begin dt s
    let lines := s.drv.lines
    let measured : State := { b with
      drv.period :=
        if lines.ready && s.drv.indexChain then s.drv.lastIndex.map (fun t => b.clock - t) else s.drv.period
      drv.lastIndex := some b.clock
      drv.indexChain := lines.ready }
    let good := lines.ready && !lines.fault
    let clears := decide (s.drv.condition = .lost) && lines.ready && s.drv.clearArmed
    let reaches := decide (s.svc.mode ≠ .passive) && !b.drv.resting
    (s.svc.mode = .passive → shownReady s = lines.ready ∧ shownProtect s = lines.protect) ∧
    (s.svc.mode ≠ .passive → shownReady s = true ∧ (shownProtect s = true ↔ freeEntries s = 0 ∨ freeSlots s = 0)) ∧
    (∃ u, exec (.driveReadyFalls dt) s = .next u ∧ u.drv.lines.ready = false ∧
      shownReady u = decide (s.svc.mode ≠ .passive)) ∧
    (s.drv.condition = .lost → exec (.driveReadyFalls dt) s = .next
      { b with drv.lines.ready := false, drv.indexChain := false, drv.indexCount := 0 }) ∧
    (NothingDue b → s.drv.capture = none → s.sweep.pass ≠ .awaitingIndex →
      (s.drv.condition = .turning → exec (.driveIndex dt) s = .next
        { measured with drv.lastRelayed := some b.clock, out := [.index] }) ∧
      (s.drv.condition = .lost → good = false → exec (.driveIndex dt) s = .next measured) ∧
      (s.drv.condition = .lost → good = true → s.drv.indexCount = 0 →
        exec (.driveIndex dt) s = .next { measured with drv.indexCount := 1 }) ∧
      (s.drv.condition = .lost → good = true → s.drv.indexCount ≠ 0 → DeviceIdle s →
        exec (.driveIndex dt) s = .next
          { measured with
            drv.condition := .turning
            drv.indexCount := 0
            drv.genNext := none
            drv.lastRelayed := some b.clock
            out := [.index] })) ∧
    exec (.driveReadyRises dt) s = .next
      (let risen : State := { b with drv.lines.ready := true, drv.clearArmed := true }
       if s.drv.condition = .lost ∧ lines.fault = true then
         if reaches then
           { risen with drv.clearArmed := false, drv.lines.positionError := false, out := [.order .clear] }
         else { risen with drv.clearArmed := false }
       else risen) ∧
    (NothingDue b → s.drv.holder.isDevice = false →
      exec (.driveFaultRises dt) s = .next
        (let risen : State := { b with
          drv.lines.fault := true
          drv.indexCount := 0
          ctl.shownFault := s.ctl.shownFault || liveOp s ||
            (decide (s.svc.mode = .passive) && decide (s.ctl.cyl ≠ serviceCylinder s)) }
         if clears then
           if reaches then
             { risen with drv.clearArmed := false, drv.lines.positionError := false, out := [.order .clear] }
           else { risen with drv.clearArmed := false }
         else risen)) ∧
    (s.drv.holder.isDevice = true → s.drv.passOn = .stays → s.drv.episode = none → s.drv.condition = .turning →
      s.ctl.withhold = none → restDue b = false → (s.drv.holder = .recovery ∨ s.seq.queue = []) →
      (s.drv.capture.all fun c => decide (c.party ≠ .live)) = true →
      exec (.driveFaultRises dt) s = .next
        { b with
          drv.lines.fault := true
          drv.lines.positionError := false
          drv.indexCount := 0
          drv.capture := none
          drv.readGate := s.drv.readGate && s.drv.capture.isNone
          drv.step := none
          drv.episode := some ⟨b.clock, s.drv.step.bind Step.move⟩
          ctl.shownFault := s.ctl.shownFault || liveOp s ||
            (decide (s.svc.mode = .passive) && decide (s.ctl.cyl ≠ serviceCylinder s))
          out := (if s.drv.readGate && s.drv.capture.isSome then [.readGate false] else []) ++ [.order .clear] }) ∧
    (s.drv.episode = none → exec (.driveFaultFalls dt) s = .next { b with drv.lines.fault := false }) ∧
    (s.drv.episode = some x → s.drv.step = none → s.drv.capture = none → s.drv.passOn = .stays → s.ctl.withhold = none →
      restDue b = false → lines.positionError = false →
      let quiet : State := { b with drv.lines.fault := false, drv.episode := none }
      let lad := s.tables.ladders.getD j.ladder Ladder.empty
      let worn := s.heads[j.addr.head]?.any HeadRecord.worn
      (s.drv.holder = .recovery → s.drv.travel = none → s.seq.queue = j :: rest → j.state = .active →
        s.seq.workingRung = some g → j.readsDone < g.reads →
        j.readsSpent < (if worn then max 1 (lad.budget / 2) else lad.budget) →
        exec (.driveFaultFalls dt) s = .next
          { quiet with drv.capture := some ⟨.recovery, j.addr, false, 0⟩, out := [.order (.targetRead j.addr.sec)] }) ∧
      (s.drv.holder = .sweep → s.sweep.state = .sweeping → x.failedMove = none → s.seq.queue = [] →
        s.drv.record = ⟨some (sweepAddr s 0).cyl, some (sweepAddr s 0).head, some .nominal, some .centre⟩ →
        exec (.driveFaultFalls dt) s = .next
          { quiet with
            drv.travel := none
            sweep := { s.sweep with cause := none, refusalMet := false, pass := .awaitingIndex, marked := [] } }) ∧
      (s.drv.holder = .recovery → x.failedMove = some m → s.drv.travel = some t → t.retry = none → t.purpose = .rung →
        t.stepped = true →
        exec (.driveFaultFalls dt) s = .next
          { quiet with
            drv.lines.onCylinder := false
            drv.record.cyl := none
            drv.step := some ⟨.ret, some .restore, b.clock, s.svc.params.positionTimeout * 1000, false⟩
            drv.travel := some { t with
              moves := [.backTo, .select] ++ (if m = .margin then [.margin] else [])
              retry := some
                (if m = .restore then t.moves.dropWhile fun x => decide (x = .backTo) else t.moves) }
            out := [.order .ret] })) ∧
    (let relayed : State := { b with drv.lines.protect := level }
     exec (.driveProtectChanges dt level) s = .next relayed ∧
       shownProtect relayed = if s.svc.mode = .passive then level else shownProtect s)

/-- The drive is judged LOST in ACTIVE or CAPTIVE mode (R126): by READY falling, by three periods without INDEX, or by
FAULT still raised 50 ms after an episode's CLEAR. The drive record is UNKNOWN, no order or step is held or in flight,
a device party's capture is abandoned and its gate lowered (R126, R12), a live one stays only if its read is in
transfer, a withheld read ends DRIVE LOST, the head job waits with its copies emptied (R72), a track read is
interrupted (R156), and a DRIVE LOST incident is logged; map, heads and tables are as they were. The instant of an
expiry, the dropping of held orders, the report's duration cut to whole milliseconds and the drop of a VOTING head's
vote result are the model's choices (logs 2, 16, 48 and 51), as is the report DRIVE LOST of a withholding whose limit
has passed with its capture in flight (log 43). -/
def Obligations.DriveIsJudgedLost : Prop :=
  ∀ (dt t p : Nat) (x : Episode) (c : Instr) (now : State) (s : State),
    (c = .driveReadyFalls dt ∧ now = begin dt s ∧ s.drv.condition = .turning ∨
      c = .indexWatchdog ∧ now = beginAt (t + 3 * p) s ∧ s.drv.condition = .turning ∧ s.drv.lastIndex = some t ∧
        s.drv.period = some p ∨
      c = .faultEpisodeTimeout ∧ now = beginAt (x.clearedAt + 50000) s ∧ s.drv.episode = some x ∧
        s.drv.lines.fault = true) →
    s.svc.mode ≠ .passive → restDue now = false →
    (s.ctl.withhold.isSome = true → s.ctl.op.map Op.kind = some .withheld) →
    let slot := s.log.index % 8
    let live := s.ctl.op.any fun o => decide (o.kind = .liveRead ∨ o.kind = .liveWrite)
    let ofDevice := s.drv.capture.any fun x => decide (x.party ≠ .live)
    let notInTransfer := live && s.ctl.op.any fun o => decide (o.phase ≠ .transferring)
    let dropped := s.ctl.op.any fun o => decide (o.kind = .withheld ∨
      ((o.kind = .liveRead ∨ o.kind = .liveWrite) ∧ o.phase ≠ .transferring))
    ∃ u, exec c s = .next u ∧
      u.drv.condition = .lost ∧ u.drv.record = ⟨none, none, none, none⟩ ∧ u.drv.holder = .nobody ∧
      u.drv.step = none ∧ u.drv.travel = none ∧ u.drv.episode = none ∧ u.drv.heldOrders = [] ∧
      u.drv.capture = (if ofDevice || notInTransfer then none else s.drv.capture) ∧
      u.drv.readGate = (s.drv.readGate && !ofDevice) ∧ u.drv.quietDue = none ∧
      u.drv.indexCount = 0 ∧ u.drv.genNext.isSome = true ∧
      u.drv.genPeriod = s.drv.period.getD 25000 ∧
      u.ctl.op = (if dropped then none else s.ctl.op) ∧ u.ctl.withhold = none ∧
      u.ctl.report = (match s.ctl.withhold with
        | some w => some ⟨w.addr, .driveLost, min ((now.clock - w.begun) / 1000) 4095⟩
        | none => s.ctl.report) ∧
      u.ctl.shownFault = (s.ctl.shownFault || live || s.ctl.withhold.isSome || dropped) ∧
      u.seq.copies = [] ∧ u.seq.lastVote = none ∧
      u.seq.queue.head? = s.seq.queue.head?.map (fun j =>
        if j.state = .voting then j else { j with state := .waiting, readsDone := 0 }) ∧
      u.sweep.state = (if s.sweep.state = .sweeping then .waiting else s.sweep.state) ∧
      u.log = ⟨s.log.positions.set slot
          (some ⟨.driveLost, min (now.clock / 1000000) 16777215, s.ctl.recentOrders⟩),
        slot + 1, min (s.log.held + 1) 8, min (s.log.lifetime + 1) 65535⟩ ∧
      u.map = s.map ∧ u.eng = s.eng ∧ u.heads = s.heads ∧ u.tables = s.tables ∧ u.svc = s.svc ∧ u.clock = now.clock

/-- The step in flight ends (R20, R121). Relayed for the controller and shown in PASSIVE mode off V: ON CYLINDER, or
on the drive's POSITION ERROR or the timeout POSITION ERROR, with the quiet interval (R131); a settle of an offset
that was UNKNOWN ends after 10 ms with the drive on cylinder. A party's completed step lets its positioning go on:
HEAD and the MARGIN that are needed, then the rung's first read, the sweep's wait for INDEX (R95, R97, R149), or the
live target a re-seat was made for (R32, R122); a re-seat at the beginning of withholding hands the drive from
CONTROLLER to RECOVERY, the job ACTIVE on its rung or VOTING and holding (R36, R75, R135). A device party's failed
step gets its one retry: CLEAR for a raised POSITION ERROR, then RETURN, and the moves left are resumed after it
(R138). A failed retry is a job-level position failure (R74, R139): the first empties the job's work and sends it to
the tail, the arbiter choosing anew, or, withheld, to the background tail, with report POSITION FAILURE and a live
pass (R37); the second ends it LOST, POSITION FAILURE, with its best image (R47, R68, R79). A step that the
controller's taking of the drive let end gets no retry: the re-seat's first order follows (R132). A re-seat's failed
step ends the operation without MATCH, POSITION ERROR shown, and a withholding with report RESEAT FAILED (R123, R184).
A step whose party has given up the drive, at PASSIVATE or elsewhere, ends with the holder NONE and gets no retry
(R134); so does one that the quiet interval outran (R131), by the model's choice (log 9). The latches `seekFailed` and
`errorCleared`, the instant of an expiry, the drive's recorded lines after CLEAR, RETURN, POSITION and MARGIN, the
report's duration cut to whole milliseconds, and a FAULT shown by a live pass at once are the model's choices (logs
13, 2, 7, 48 and 37). -/
def Obligations.StepsEnd : Prop :=
  ∀ (dt : Nat) (st : Step) (t : Travel) (m : Move) (j next : Job) (rest others : List Job) (r : Rung) (h : HeadRecord)
    (e : Entry) (o : Op) (w : Withhold) (s : State),
    let b := begin dt s
    s.drv.step = some st →
    let record : DriveRecord := match st.order with
      | .position c => { s.drv.record with cyl := some c }
      | .ret => { s.drv.record with cyl := some 0 }
      | .margin _ off => { s.drv.record with offset := some off }
      | _ => s.drv.record
    let timedOut := beginAt (st.issuedAt + st.timeout) s
    (st.move = none → s.svc.mode = .passive → s.ctl.cyl ≠ serviceCylinder s → s.ctl.op = none → s.ctl.withhold = none →
      s.drv.travel = none → s.drv.capture = none → s.drv.episode = none → s.drv.heldOrders = [] →
      s.drv.passOn = .stays → s.drv.holder = .controller →
      let completed := fun (now : State) => Host.Outcome.next (φ := Fault) (ρ := Refusal)
        { now with
          drv.step := none
          drv.lines.onCylinder := true
          drv.record := record
          drv.quietDue := some (now.clock + s.svc.params.quietInterval * 1000)
          ctl.shownOnCylinder := !s.ctl.errorCleared }
      let failed := fun (now : State) => Host.Outcome.next (φ := Fault) (ρ := Refusal)
        { now with
          drv.step := none
          drv.quietDue := some (now.clock + s.svc.params.quietInterval * 1000)
          ctl.shownPositionError := true
          ctl.shownOnCylinder := false
          ctl.seekFailed := true }
      let settled := beginAt (st.issuedAt + 10000) s
      (restDue b = false →
        exec (.positioningStepCompletes dt) s = completed b ∧
        exec (.positioningStepFails dt) s = failed { b with drv.lines.positionError := true }) ∧
      (restDue timedOut = false → exec .positionTimeout s = failed timedOut) ∧
      (restDue settled = false → st.unknownOffset = true → s.drv.lines.onCylinder = true →
        exec .marginUnknownSettle s = completed settled)) ∧
    (st.move = some m → s.drv.travel = some t → t.retry = none → t.purpose = .rung → t.stepped = true →
      s.drv.holder = .recovery → s.drv.passOn = .stays → s.drv.capture = none → s.drv.episode = none →
      s.ctl.withhold = none → restDue b = false →
      exec (.positioningStepFails dt) s = .next
        { b with
          drv.lines.positionError := false
          drv.lines.onCylinder := false
          drv.record.cyl := none
          drv.step := some ⟨.ret, some .restore, b.clock, s.svc.params.positionTimeout * 1000, false⟩
          drv.travel := some { t with
            moves := [.backTo, .select] ++ (if m = .margin then [.margin] else [])
            retry := some
              (if m = .restore then t.moves.dropWhile fun x => decide (x = .backTo) else t.moves) }
          out := [.order .clear, .order .ret] }) ∧
    (st.move = some m → s.drv.travel = some t → t.retry = none → s.drv.passOn = .stays → s.drv.capture = none →
      s.drv.episode = none → s.ctl.withhold = none → restDue b = false →
      let select := if record.head = some t.head then [] else [Signal.order (.head t.head)]
      let reached : State :=
        { b with
          drv.step := none
          drv.lines.onCylinder := true
          drv.travel := none
          drv.record := if t.moves = [] then record else ⟨record.cyl, some t.head, some t.strobe, some t.offset⟩
          out := if t.moves = [] then [] else
            select ++ if record.strobe = some t.strobe then [] else [.order (.margin t.strobe t.offset)] }
      (t.moves = [] ∨ t.moves = [.select, .margin] ∧ record.offset = some t.offset →
        (t.purpose = .rung → s.drv.holder = .recovery → headJob s = some j → j.state = .active →
          s.seq.workingRung = some r → j.readsDone < r.reads →
          j.readsSpent < effectiveBudget (isWorn s j.addr.head) (ladderOf s j.ladder).budget →
          exec (.positioningStepCompletes dt) s = .next
            { reached with
              drv.capture := some ⟨.recovery, j.addr, false, 0⟩
              out := reached.out ++ [.order (.targetRead j.addr.sec)] }) ∧
        (t.purpose = .sweep → s.drv.holder = .sweep → s.sweep.state = .sweeping → sweepYields s = false →
          exec (.positioningStepCompletes dt) s = .next { reached with sweep.pass := .awaitingIndex }) ∧
        (t.purpose = .reseatLive → s.drv.holder = .controller → s.drv.heldOrders = [] → s.ctl.op = some o →
          let issued : State := { reached with ctl.op := some { o with phase := .awaitingMatch } }
          (o.kind = .liveRead → exec (.positioningStepCompletes dt) s = .next
            { issued with
              drv.capture := some ⟨.live, o.addr, false, 0⟩
              out := reached.out ++ [.order (.targetRead o.addr.sec)] }) ∧
          (o.kind = .liveWrite → exec (.positioningStepCompletes dt) s = .next
            { issued with out := reached.out ++ [.order (.targetWrite o.addr.sec)] }))) ∧
      (t.moves = [.select, .margin] → record.offset ≠ some t.offset → s.drv.lines.positionError = false →
        (s.drv.holder = .recovery ∨ s.drv.holder = .sweep ∧ sweepYields s = false ∨
          s.drv.holder = .controller ∧ s.drv.heldOrders = []) →
        exec (.positioningStepCompletes dt) s = .next
          { b with
            drv.lines.onCylinder := record.offset.isNone
            drv.record := ⟨record.cyl, some t.head, some t.strobe, none⟩
            drv.step := some ⟨.margin t.strobe t.offset, some .margin, b.clock, s.svc.params.positionTimeout * 1000,
              record.offset.isNone⟩
            drv.travel := some { t with moves := [], stepped := true }
            out := select ++ [.order (.margin t.strobe t.offset)] })) ∧
    (st.move = some m → s.drv.travel = some t → t.retry = none → t.purpose = .reseatWithhold → t.moves = [] →
      s.drv.holder = .controller → s.drv.passOn = .stays → s.drv.heldOrders = [] → s.drv.capture = none →
      s.drv.episode = none → s.ctl.withhold = some w → w.limitPassed = false → s.drv.resting = false →
      s.drv.lines.fault = false → restDue b = false → s.ctl.op = some o → s.seq.queue = j :: rest →
      (∀ x ∈ rest, x.addr ≠ j.addr) →
      let handed : State :=
        { b with
          drv.step := none
          drv.lines.onCylinder := true
          drv.record := record
          drv.travel := none
          drv.quietDue := none
          drv.holder := .recovery
          drv.idle := 0
          ctl.op := some { o with phase := .awaitingMatch } }
      (j.state = .voting → exec (.positioningStepCompletes dt) s = .next handed) ∧
      (j.state = .waiting → (ladderOf s j.ladder).rungs[j.rungIndex]? = some r →
        (isWorn s j.addr.head = false ∨ r.offset = .centre) → r.restoreFirst = false → j.readsDone < r.reads →
        j.readsSpent < effectiveBudget (isWorn s j.addr.head) (ladderOf s j.ladder).budget →
        record = ⟨some j.addr.cyl, some j.addr.head, some r.strobe, some r.offset⟩ →
        exec (.positioningStepCompletes dt) s = .next
          { handed with
            seq := ⟨{ j with state := .active } :: rest,
              if r.resetCopies && decide (j.readsDone = 0) then [] else s.seq.copies, s.seq.lastVote, some r⟩
            drv.capture := some ⟨.recovery, j.addr, false, 0⟩
            out := [.order (.targetRead j.addr.sec)] })) ∧
    (st.move = some m → s.drv.travel = some t → t.retry.isSome = true → t.purpose = .rung → s.drv.holder = .recovery →
      s.drv.passOn = .stays → s.drv.capture = none → s.drv.episode = none → s.drv.heldOrders = [] → restDue b = false →
      s.seq.queue = j :: rest → (∀ x ∈ rest, x.addr ≠ j.addr) → j.state = .active → s.drv.condition = .turning →
      s.svc.mode ≠ .passive → s.drv.resting = false →
      let failing : State := { b with drv.step := none, drv.travel := none, drv.lines.positionError := true }
      let sent : Job := { j with positionFailures := 1, readsDone := 0, state := .waiting }
      let positions := fun (now : State) (c : Nat) (t : Travel) => Host.Outcome.next (φ := Fault) (ρ := Refusal)
        { now with
          drv.lines.positionError := false
          drv.lines.onCylinder := false
          drv.record.cyl := none
          drv.step := some ⟨.position c, some .reach, b.clock, s.svc.params.positionTimeout * 1000, false⟩
          drv.travel := some t
          out := [.order .clear, .order (.position c)] }
      (j.positionFailures = 0 → s.ctl.withhold = none → j.cls = .background → rest ++ [sent] = next :: others →
        next.state = .waiting → next.readsDone = 0 → (∀ x ∈ others, x.addr ≠ next.addr) → s.drv.lines.fault = false →
        (ladderOf s next.ladder).rungs[next.rungIndex]? = some r →
        (isWorn s next.addr.head = false ∨ r.offset = .centre) → r.restoreFirst = false →
        s.drv.record.cyl ≠ some next.addr.cyl →
        exec (.positioningStepFails dt) s = positions
          { failing with
            seq := ⟨{ next with state := .active } :: others, [], none, some r⟩
            drv.idle := 0 }
          next.addr.cyl
          ⟨.rung, next.addr.cyl, next.addr.head, r.strobe, r.offset,
            [.select] ++ (if r.resetCopies then [.emptyCopies] else []) ++ [.margin], true, none⟩) ∧
      (j.positionFailures = 0 → s.ctl.withhold = some w → w.addr = j.addr → s.drv.record.cyl ≠ some s.ctl.cyl →
        exec (.positioningStepFails dt) s = positions
          { reported .positionFailure w failing with
            ctl.op := some ⟨.liveRead, j.addr, .awaitingDrive, none, false, false, none⟩
            ctl.shownFault := s.ctl.shownFault || s.drv.lines.fault
            seq := ⟨rest ++ [{ sent with cls := .background }], [], none, none⟩
            drv.holder := .controller
            drv.quietDue := none }
          s.ctl.cyl
          ⟨.reseatLive, s.ctl.cyl, s.ctl.head, s.ctl.strobe, s.ctl.offset, [.select, .margin], true, none⟩) ∧
      (j.positionFailures ≠ 0 → s.ctl.withhold = none → rest = [] → s.sweep.state = .idle → entryOf s j.addr = some e →
        e.body = .pending → s.map.claim = none → s.heads[j.addr.head]? = some h →
        exec (.positioningStepFails dt) s = .next
          { lostAs .positionFailure j h (s.seq.lastVote.or s.seq.copies.getLast?) failing with
            seq := ⟨[], [], none, none⟩
            drv.holder := .nobody })) ∧
    (st.move = some m → s.drv.passOn = .toController → s.drv.holder.isDevice = true → s.drv.travel = none →
      s.drv.capture = none → s.drv.episode = none → s.drv.heldOrders = [] → s.ctl.withhold = none →
      s.ctl.op = some o → o.phase = .awaitingDrive → (o.kind = .liveRead ∨ o.kind = .liveWrite) →
      let reseats := fun (now : State) (left : DriveRecord) => Host.Outcome.next (φ := Fault) (ρ := Refusal)
        { now with
          drv.holder := .controller
          drv.passOn := .stays
          drv.quietDue := none
          drv.lines.onCylinder := false
          drv.lines.positionError := false
          drv.record := { left with cyl := none }
          drv.step := some ⟨.position s.ctl.cyl, some .reach, now.clock, s.svc.params.positionTimeout * 1000, false⟩
          drv.travel := some ⟨.reseatLive, s.ctl.cyl, s.ctl.head, s.ctl.strobe, s.ctl.offset, [.select, .margin], true,
            none⟩
          out := (if now.drv.lines.positionError then [.order .clear] else []) ++ [.order (.position s.ctl.cyl)] }
      (restDue b = false → record.cyl ≠ some s.ctl.cyl →
        exec (.positioningStepCompletes dt) s = reseats b record) ∧
      (restDue b = false → s.drv.record.cyl ≠ some s.ctl.cyl →
        exec (.positioningStepFails dt) s = reseats { b with drv.lines.positionError := true } s.drv.record) ∧
      (restDue timedOut = false → s.drv.record.cyl ≠ some s.ctl.cyl →
        exec .positionTimeout s = reseats timedOut s.drv.record)) ∧
    (st.move = some m → s.drv.travel = some t → s.drv.passOn = .stays → s.drv.holder = .controller →
      s.drv.capture = none → s.drv.episode = none → s.drv.heldOrders = [] →
      (t.purpose = .reseatLive ∧ s.ctl.withhold = none ∨
        t.purpose = .reseatWithhold ∧ s.ctl.withhold = some w) →
      let ends := fun (now : State) => Host.Outcome.next (φ := Fault) (ρ := Refusal)
        { now with
          drv.step := none
          drv.travel := none
          drv.quietDue := some (now.clock + s.svc.params.quietInterval * 1000)
          ctl.op := none
          ctl.withhold := none
          ctl.report := if s.ctl.withhold = none then s.ctl.report
            else some ⟨w.addr, .reseatFailed, min ((now.clock - w.begun) / 1000) 4095⟩
          ctl.shownPositionError := true
          ctl.shownOnCylinder := false
          ctl.seekFailed := true }
      (restDue b = false →
        exec (.positioningStepFails dt) s = ends { b with drv.lines.positionError := true }) ∧
      (restDue timedOut = false → exec .positionTimeout s = ends timedOut)) ∧
    (st.move = some m → s.drv.passOn = .toNobody → s.ctl.withhold = none → DeviceIdle s →
      let freed := fun (now : State) => ({ now with
        drv.step := none, drv.holder := .nobody, drv.passOn := .stays } : State)
      (restDue b = false →
        exec (.positioningStepCompletes dt) s =
          .next { freed b with drv.lines.onCylinder := true, drv.record := record } ∧
        exec (.positioningStepFails dt) s = .next { freed b with drv.lines.positionError := true }) ∧
      (restDue timedOut = false → exec .positionTimeout s = .next (freed timedOut)))

/-- The timers of the view, the quiet interval and the duty limiter (R19, R131, R142 to R144): the view settle shows
ON CYLINDER; the quiet interval gives up the controller's holding, and the arbiter grants the drive to a WAITING head,
which goes to its rung (R65, R94, R95, R130), else to a WAITING sweep, which goes to its track (R149, R154), with an
episode at once while FAULT is raised (R125); the idle timer zeroes the work counter; the work duration begins a rest,
which a device party's capture or step lets wait, and which ends a withholding with report REST, its job demoted and a
live pass made (R37, R76, R184); the rest's end turns both counters back. An expiry begins at its due instant by the
model's choice (log 2), as are the drive's recorded lines (log 7), a FAULT that finds the worn-head skips at their end
(log 47), an idle timer above a shortened rest duration (log 27) and one held at the rest duration (log 58), a rest's
end that issues no CLEAR to a LOST drive (log 18), a fault episode that does not hold the rest back (log 56), a FAULT
shown by the live pass at once (log 37) and the report's duration cut to whole milliseconds (log 48). -/
def Obligations.TimersExpire : Prop :=
  ∀ (due : Nat) (j : Job) (others : List Job) (g : Rung) (w : Withhold) (s : State),
    let work := codeDuration s.svc.params.workCode
    let rest := codeDuration s.svc.params.restCode
    let on := decide (s.svc.params.workCode ≠ 0 ∧ s.svc.params.restCode ≠ 0)
    (s.ctl.settleDue = some due → exec .viewSettle s = .next
      { beginAt due s with ctl.settleDue := none, ctl.shownOnCylinder := true }) ∧
    (s.drv.quietDue = some due → s.drv.holder = .controller → DriveFree (beginAt due s) → DeviceIdle s →
      exec .quietInterval s = .next { beginAt due s with drv.quietDue := none, drv.holder := .nobody }) ∧
    (s.drv.quietDue = some due → s.drv.holder = .controller → DriveFree (beginAt due s) → s.svc.mode ≠ .passive →
      s.drv.condition = .turning → s.drv.resting = false →
      let now : State := { beginAt due s with drv.quietDue := none, drv.idle := 0 }
      let fault := s.drv.lines.fault
      let cleared := if fault || s.drv.lines.positionError then [Signal.order .clear] else []
      let goes := fun (holding : State) (c : Nat) (t : Travel) =>
        ({ holding with
            drv.lines.positionError := false
            drv.lines.onCylinder := holding.drv.lines.onCylinder && fault
            drv.record.cyl := if fault then holding.drv.record.cyl else none
            drv.episode := if fault then some ⟨holding.clock, none⟩ else none
            drv.step := if fault then none else
              some ⟨.position c, some .reach, holding.clock, s.svc.params.positionTimeout * 1000, false⟩
            drv.travel := some (if fault then t else { t with moves := t.moves.tail, stepped := true })
            out := cleared ++ if fault then [] else [.order (.position c)] } : State)
      (s.seq.queue = j :: others → j.state = .waiting → (∀ x ∈ others, x.addr ≠ j.addr) → j.readsDone = 0 →
        let rungs := (s.tables.ladders.getD j.ladder Ladder.empty).rungs
        let worn := s.heads[j.addr.head]?.any HeadRecord.worn
        let i := j.rungIndex + (rungs.drop j.rungIndex).findIdx fun r => !worn || decide (r.offset = .centre)
        rungs[i]? = some g → g.restoreFirst = false → s.drv.record.cyl ≠ some j.addr.cyl →
        exec .quietInterval s = .next
          (goes
            { now with
              drv.holder := .recovery
              seq.queue := { j with rungIndex := i, state := .active } :: others
              seq.workingRung := some g }
            j.addr.cyl
            ⟨.rung, j.addr.cyl, j.addr.head, g.strobe, g.offset,
              [.reach, .select] ++ (if g.resetCopies then [.emptyCopies] else []) ++ [.margin], false, none⟩)) ∧
      (headMayRun s = false → s.sweep.state = .waiting →
        let heads := headCount s
        let next := s.sweep.next
        let worn := fun n : Nat => s.heads[n % heads]?.any HeadRecord.worn
        let after := if next + 1 = s.sweep.limit then s.sweep.base else next + 1
        let granted : Sweep :=
          { s.sweep with state := .sweeping, cause := none, refusalMet := false, pass := .reaching, marked := [] }
        (worn next = false → s.drv.record.cyl ≠ some (next / heads) →
          exec .quietInterval s = .next
            (goes { now with drv.holder := .sweep, sweep := granted } (next / heads)
              ⟨.sweep, next / heads, next % heads, .nominal, .centre, [.reach, .select, .margin], false, none⟩)) ∧
        (worn next = false → fault = false →
          s.drv.record = ⟨some (next / heads), some (next % heads), some .nominal, some .centre⟩ →
          exec .quietInterval s = .next
            { now with drv.holder := .sweep, sweep := { granted with pass := .awaitingIndex } }) ∧
        (worn next = true → s.sweep.base < s.sweep.limit → after = s.sweep.stop →
          exec .quietInterval s = .next
            { now with
              drv.holder := .nobody
              sweep := { s.sweep with
                next := after, state := .done, tracksSkipped := min (s.sweep.tracksSkipped + 1) 65535 } }))) ∧
    (on = true → s.drv.resting = false → s.drv.holder.isDevice = false → exec .idleTimer s = .next
      { s with clock := s.clock + (rest - s.drv.idle), drv.idle := rest, drv.work := 0, out := [] }) ∧
    (on = true → s.drv.resting = false → s.drv.holder = .recovery → s.svc.mode ≠ .passive →
      s.ctl.withhold = none → s.drv.passOn = .stays →
      let reached : State := { s with
        clock := s.clock + (work - s.drv.work), drv.work := max s.drv.work work, out := [] }
      ((s.drv.capture.isSome = true ∨ s.drv.step.isSome = true) →
        exec .workDurationReached s = .next reached) ∧
      (s.drv.capture = none → s.drv.step = none → (s.drv.travel.all fun t => t.retry.isNone) = true →
        s.sweep.state ≠ .sweeping → s.drv.heldOrders = [] →
        exec .workDurationReached s = .next
          { reached with
            drv.resting := true
            drv.work := work
            drv.restStart := s.clock + (work - s.drv.work)
            drv.holder := .nobody
            drv.travel := none
            drv.episode := none
            seq.queue := s.seq.queue.map fun j => if j.state = .active then { j with state := .waiting } else j })) ∧
    (on = true → s.drv.resting = false → s.drv.holder = .recovery → s.svc.mode ≠ .passive →
      s.ctl.withhold = some w → w.limitPassed = false → s.seq.queue = [j] → w.addr = j.addr →
      s.drv.condition = .turning → AtView s →
      s.drv.passOn = .stays → s.drv.capture = none → s.drv.step = none →
      (s.drv.travel.all fun t => t.retry.isNone) = true → s.sweep.state ≠ .sweeping → s.drv.heldOrders = [] →
      exec .workDurationReached s = .next
        (livePass j.addr (reported .rest w
          { s with
            clock := s.clock + (work - s.drv.work)
            drv.work := work
            drv.resting := true
            drv.restStart := s.clock + (work - s.drv.work)
            drv.episode := none
            seq.queue := [{ j with
              cls := .background
              state := if j.state = .active then .waiting else j.state }]
            out := [] }))) ∧
    (s.drv.resting = true → DeviceIdle s → Unoccupied s → exec .restEnds s = .next
      { beginAt (s.drv.restStart + rest) s with drv.resting := false, drv.work := 0, drv.idle := 0 })

/-- The withhold limit passes (R37, R76): with a capture in flight it is only noted; else the withholding ends with
report LIMIT, the read goes on live with the drive in the controller's hands, and the job stands at the tail of the
background group. -/
def Obligations.WithholdLimitPasses : Prop :=
  ∀ (w : Withhold) (j : Job) (s : State),
    s.ctl.withhold = some w → w.limitPassed = false → s.clock ≤ w.begun + w.limit * 1000 → w.limit ≤ 4000 →
    let now := beginAt (w.begun + w.limit * 1000) s
    (NothingDue now → s.drv.capture.isSome = true → exec .withholdLimit s = .next
      { now with ctl.withhold := some { w with limitPassed := true } }) ∧
    (s.svc.mode = .active → s.drv.condition = .turning → s.drv.resting = false → restDue now = false →
      s.drv.capture = none → s.drv.step = none → s.drv.travel = none → s.drv.episode = none → s.drv.heldOrders = [] →
      s.drv.passOn = .stays → s.sweep.state ≠ .sweeping → jobOf s w.addr = some j → (s.seq.queue.map Job.addr).Nodup →
      ∃ t, exec .withholdLimit s = .next t ∧
        t.ctl.withhold = none ∧ t.ctl.report = some ⟨w.addr, .limit, w.limit⟩ ∧
        t.ctl.op.map (fun o => (o.kind, o.addr)) = some (.liveRead, w.addr) ∧ t.drv.holder = .controller ∧
        t.seq.queue.getLast?.map (fun j => (j.addr, j.cls)) = some (w.addr, .background) ∧
        t.map = s.map ∧ t.log = s.log ∧ t.heads = s.heads ∧ t.sweep = s.sweep ∧ t.svc = s.svc ∧ t.tables = s.tables ∧
        t.clock = now.clock)

/-- A vote completes (R71, R114, R116) with its job VOTING at the queue's head. Marked, it is discarded. A vote that
waits is then computed, or dropped if it is marked (R105); the mark in `left` falls on a waiting vote of the very job
that ends here, which no run has (R105). Accepted, the job ends RECOVERED, by VOTE or by SEARCH with its flips, with
the weak count of this vote (R46, R77), and a withheld read of it is served after a MATCH 1 ms later (R37); not
accepted, the rung's failure goes on to the next rung (R99), the job WAITING for the drive, with the voted image kept
as its best (R68), or by END, or with no rung left, ends the job LOST with that image (R47, R79, R166), and a withheld
read of it gets its live pass (R37). A FOREGROUND job whose vote is not accepted while the sweep reads takes the drive
from it at once (R133). That a FAULT raised already is shown by the live pass at once, and the report's duration cut
to whole milliseconds, are the model's choices (logs 37 and 48). -/
def Obligations.VotesComplete : Prop :=
  ∀ (dt : Nat) (v : Vote) (j : Job) (g : Rung) (r : HeadRecord) (e : Entry) (image : Field) (next : Rung)
    (flips : Nat) (w : Withhold) (s : State), let b := begin dt s
    s.eng.inFlight = some v →
    let follows : Option Vote := s.eng.waiting.bind fun u =>
      if u.discard then none else some (startVote s.straps u.owner u.inputs false)
    let left : Engine := ⟨follows.map fun u => if u.owner = j.addr then { u with discard := true } else u, none⟩
    let methodSurcharge := fun (m : Method) => match m with
      | .vote => 2
      | .search _ => 4
      | .clean => 0
      | .imported => 0
    let score := fun (m : Method) => r.score - (min j.readsSpent 15 + methodSurcharge m)
    let recovered := fun (m : Method) (image : Field) =>
      ({ b with
          map.entries := s.map.entries.map fun x =>
            if x.addr = j.addr then
              { x with body := .settled (.recovered m) j.readsSpent (some v.weakCount) (freeSlot s) }
            else x
          map.store := putSlot (freeSlot s) (packImage s.straps.bits image) s.map.store
          heads := s.heads.set j.addr.head { r with score := score m, recoveries := min (r.recoveries + 1) 65535 }
          seq := ⟨[], [], none, none⟩
          eng := left } : State)
    let rejected := voteEnd s.straps v = .ambiguous ∨ voteEnd s.straps v = .tooWeak ∨ voteEnd s.straps v = .failed
    let rungs := (s.tables.ladders.getD j.ladder Ladder.empty).rungs
    let told : Job :=
      { j with lastWeak := some v.weakCount, lastAmbiguous := decide (voteEnd s.straps v = .ambiguous) }
    (v.discard = true → exec (.voteCompletes dt) s = .next { b with eng := ⟨follows, none⟩ }) ∧
    (v.discard = false → s.seq.queue = [j] → j.addr = v.owner → j.state = .voting → entryOf s j.addr = some e →
      e.body = .pending → s.map.claim = none → s.sweep.state = .idle → s.heads[j.addr.head]? = some r →
      let free := s.ctl.withhold = none ∧ s.drv.holder = .nobody ∧ NothingDue b
      let withheld := s.ctl.withhold = some w ∧ w.addr = j.addr ∧ s.drv.holder = .recovery ∧ s.drv.passOn = .stays ∧
        s.drv.step = none ∧ s.drv.capture = none ∧ s.drv.travel = none ∧ s.drv.episode = none ∧
        s.drv.heldOrders = [] ∧ restDue b = false
      (r.worn = false → r.threshold < r.score - 19 →
        (free →
          (voteEnd s.straps v = .acceptedVote → exec (.voteCompletes dt) s = .next (recovered .vote v.image)) ∧
          (voteEnd s.straps v = .acceptedSearch image flips →
            exec (.voteCompletes dt) s = .next (recovered (.search flips) image)) ∧
          (rejected → s.seq.workingRung = some g → g.onFailure = .cont → s.drv.condition = .lost →
            rungs.length > j.rungIndex + 1 →
            exec (.voteCompletes dt) s = .next
              { b with
                eng := ⟨follows, none⟩
                seq.queue := [{ told with rungIndex := j.rungIndex + 1, readsDone := 0, state := .waiting }]
                seq.lastVote := some v.image
                seq.workingRung := rungs[j.rungIndex + 1]? })) ∧
        (withheld → voteEnd s.straps v = .acceptedVote →
          exec (.voteCompletes dt) s = .next
            (servedNext j.addr (reported .recovered w { recovered .vote v.image with drv.holder := .nobody })))) ∧
      (rejected → s.seq.workingRung = some g →
        let i := if g.onFailure = .skip then min (j.rungIndex + 2) 16 else j.rungIndex + 1
        (g.onFailure = .stop ∨ rungs.length ≤ i) →
        let lost : State :=
          { lostAs (if told.lastAmbiguous then .ambiguous else .unrecovered)
              { told with rungIndex := if g.onFailure = .stop then j.rungIndex else i } r (some v.image) b with
            seq := ⟨[], [], none, none⟩
            eng := if g.onFailure = .stop then left else ⟨follows, none⟩ }
        (free → exec (.voteCompletes dt) s = .next lost) ∧
        (withheld → s.drv.condition = .turning → AtView s →
          exec (.voteCompletes dt) s = .next (livePass j.addr (reported .lost w lost))))) ∧
    (v.discard = false → s.seq.queue = [j] → j.addr = v.owner → j.state = .voting → j.cls = .foreground →
      rejected → s.seq.workingRung = some g → g.onFailure = .cont →
      rungs[j.rungIndex + 1]? = some next → next.restoreFirst = false →
      s.heads[j.addr.head]? = some r → r.worn = false → s.drv.holder = .sweep → s.sweep.state = .sweeping →
      s.drv.passOn = .stays → s.drv.step = none → s.drv.episode = none →
      (s.drv.capture.all fun c => decide (c.party ≠ .live)) = true → s.ctl.withhold = none → restDue b = false →
      s.svc.mode ≠ .passive → s.drv.condition = .turning → s.drv.resting = false → s.drv.lines.fault = false →
      s.drv.record.cyl ≠ some j.addr.cyl →
      ∃ t, exec (.voteCompletes dt) s = .next t ∧
        t.drv.holder = .recovery ∧ t.drv.capture = none ∧
        t.drv.step = some ⟨.position j.addr.cyl, some .reach, b.clock, s.svc.params.positionTimeout * 1000, false⟩ ∧
        t.sweep = { s.sweep with
          state := .waiting, cause := none, refusalMet := false, pass := .reaching, marked := [] } ∧
        t.seq.queue = [{ told with rungIndex := j.rungIndex + 1, readsDone := 0, state := .active }] ∧
        t.seq.workingRung = some next ∧ t.seq.lastVote = some v.image ∧ t.eng = ⟨follows, none⟩ ∧
        t.map = s.map ∧ t.heads = s.heads ∧ t.log = s.log ∧ t.ctl = s.ctl ∧ t.svc = s.svc ∧ t.tables = s.tables ∧
        t.clock = b.clock)
end

