-- ==== Sys2Proof/Laws/State.lean ====
section
/-!
SUPPORT. What the plain record updates leave alone: one lemma for each update, a field of the state to each clause, so
that no later proof unfolds a record update. Each is also a simp lemma.
-/

namespace Sys2Proof.Machine

@[simp] theorem emit_keeps (x : Signal) (s : State) :
    (emit x s).clock = s.clock ∧ (emit x s).straps = s.straps ∧ (emit x s).svc = s.svc ∧ (emit x s).ctl = s.ctl ∧
    (emit x s).drv = s.drv ∧ (emit x s).map = s.map ∧ (emit x s).seq = s.seq ∧ (emit x s).eng = s.eng ∧
    (emit x s).tables = s.tables ∧ (emit x s).sweep = s.sweep ∧ (emit x s).heads = s.heads ∧
    (emit x s).log = s.log ∧ (emit x s).pending = s.pending :=
  ⟨rfl, rfl, rfl, rfl, rfl, rfl, rfl, rfl, rfl, rfl, rfl, rfl, rfl⟩

@[simp] theorem beginNow_keeps (s : State) :
    (beginNow s).clock = s.clock ∧ (beginNow s).straps = s.straps ∧ (beginNow s).svc = s.svc ∧
    (beginNow s).ctl = s.ctl ∧ (beginNow s).drv = s.drv ∧ (beginNow s).map = s.map ∧ (beginNow s).seq = s.seq ∧
    (beginNow s).eng = s.eng ∧ (beginNow s).tables = s.tables ∧ (beginNow s).sweep = s.sweep ∧
    (beginNow s).heads = s.heads ∧ (beginNow s).log = s.log ∧ (beginNow s).pending = s.pending :=
  ⟨rfl, rfl, rfl, rfl, rfl, rfl, rfl, rfl, rfl, rfl, rfl, rfl, rfl⟩

@[simp] theorem respond_keeps (tag : Nat) (r : Reply) (s : State) :
    (respond tag r s).clock = s.clock ∧ (respond tag r s).straps = s.straps ∧ (respond tag r s).ctl = s.ctl ∧
    (respond tag r s).drv = s.drv ∧ (respond tag r s).map = s.map ∧ (respond tag r s).seq = s.seq ∧
    (respond tag r s).eng = s.eng ∧ (respond tag r s).tables = s.tables ∧ (respond tag r s).sweep = s.sweep ∧
    (respond tag r s).heads = s.heads ∧ (respond tag r s).log = s.log ∧ (respond tag r s).out = s.out ∧
    (respond tag r s).pending = s.pending :=
  ⟨rfl, rfl, rfl, rfl, rfl, rfl, rfl, rfl, rfl, rfl, rfl, rfl, rfl⟩

@[simp] theorem endField_keeps (s : State) :
    (endField s).clock = s.clock ∧ (endField s).straps = s.straps ∧ (endField s).svc = s.svc ∧
    (endField s).drv = s.drv ∧ (endField s).map = s.map ∧ (endField s).seq = s.seq ∧ (endField s).eng = s.eng ∧
    (endField s).tables = s.tables ∧ (endField s).sweep = s.sweep ∧ (endField s).heads = s.heads ∧
    (endField s).log = s.log ∧ (endField s).out = s.out ∧ (endField s).pending = s.pending :=
  ⟨rfl, rfl, rfl, rfl, rfl, rfl, rfl, rfl, rfl, rfl, rfl, rfl, rfl⟩

@[simp] theorem updateJob_keeps (a : Addr) (f : Job → Job) (s : State) :
    (updateJob a f s).clock = s.clock ∧ (updateJob a f s).straps = s.straps ∧ (updateJob a f s).svc = s.svc ∧
    (updateJob a f s).ctl = s.ctl ∧ (updateJob a f s).drv = s.drv ∧ (updateJob a f s).map = s.map ∧
    (updateJob a f s).eng = s.eng ∧ (updateJob a f s).tables = s.tables ∧ (updateJob a f s).sweep = s.sweep ∧
    (updateJob a f s).heads = s.heads ∧ (updateJob a f s).log = s.log ∧ (updateJob a f s).out = s.out ∧
    (updateJob a f s).pending = s.pending :=
  ⟨rfl, rfl, rfl, rfl, rfl, rfl, rfl, rfl, rfl, rfl, rfl, rfl, rfl⟩

@[simp] theorem markDiscard_keeps (a : Addr) (s : State) :
    (markDiscard a s).clock = s.clock ∧ (markDiscard a s).straps = s.straps ∧ (markDiscard a s).svc = s.svc ∧
    (markDiscard a s).ctl = s.ctl ∧ (markDiscard a s).drv = s.drv ∧ (markDiscard a s).map = s.map ∧
    (markDiscard a s).seq = s.seq ∧ (markDiscard a s).tables = s.tables ∧ (markDiscard a s).sweep = s.sweep ∧
    (markDiscard a s).heads = s.heads ∧ (markDiscard a s).log = s.log ∧ (markDiscard a s).out = s.out ∧
    (markDiscard a s).pending = s.pending :=
  ⟨rfl, rfl, rfl, rfl, rfl, rfl, rfl, rfl, rfl, rfl, rfl, rfl, rfl⟩

@[simp] theorem emptyHeadWork_keeps (s : State) :
    (emptyHeadWork s).clock = s.clock ∧ (emptyHeadWork s).straps = s.straps ∧ (emptyHeadWork s).svc = s.svc ∧
    (emptyHeadWork s).ctl = s.ctl ∧ (emptyHeadWork s).drv = s.drv ∧ (emptyHeadWork s).map = s.map ∧
    (emptyHeadWork s).eng = s.eng ∧ (emptyHeadWork s).tables = s.tables ∧ (emptyHeadWork s).sweep = s.sweep ∧
    (emptyHeadWork s).heads = s.heads ∧ (emptyHeadWork s).log = s.log ∧ (emptyHeadWork s).out = s.out ∧
    (emptyHeadWork s).pending = s.pending :=
  ⟨rfl, rfl, rfl, rfl, rfl, rfl, rfl, rfl, rfl, rfl, rfl, rfl, rfl⟩

@[simp] theorem standDown_keeps (s : State) :
    (standDown s).clock = s.clock ∧ (standDown s).straps = s.straps ∧ (standDown s).svc = s.svc ∧
    (standDown s).ctl = s.ctl ∧ (standDown s).drv = s.drv ∧ (standDown s).map = s.map ∧ (standDown s).eng = s.eng ∧
    (standDown s).tables = s.tables ∧ (standDown s).sweep = s.sweep ∧ (standDown s).heads = s.heads ∧
    (standDown s).log = s.log ∧ (standDown s).out = s.out ∧ (standDown s).pending = s.pending :=
  ⟨rfl, rfl, rfl, rfl, rfl, rfl, rfl, rfl, rfl, rfl, rfl, rfl, rfl⟩

@[simp] theorem setBody_keeps (a : Addr) (b : EntryBody) (s : State) :
    (setBody a b s).clock = s.clock ∧ (setBody a b s).straps = s.straps ∧ (setBody a b s).svc = s.svc ∧
    (setBody a b s).ctl = s.ctl ∧ (setBody a b s).drv = s.drv ∧ (setBody a b s).seq = s.seq ∧
    (setBody a b s).eng = s.eng ∧ (setBody a b s).tables = s.tables ∧ (setBody a b s).sweep = s.sweep ∧
    (setBody a b s).heads = s.heads ∧ (setBody a b s).log = s.log ∧ (setBody a b s).out = s.out ∧
    (setBody a b s).pending = s.pending :=
  ⟨rfl, rfl, rfl, rfl, rfl, rfl, rfl, rfl, rfl, rfl, rfl, rfl, rfl⟩

@[simp] theorem addEntry_keeps (e : Entry) (s : State) :
    (addEntry e s).clock = s.clock ∧ (addEntry e s).straps = s.straps ∧ (addEntry e s).svc = s.svc ∧
    (addEntry e s).ctl = s.ctl ∧ (addEntry e s).drv = s.drv ∧ (addEntry e s).seq = s.seq ∧
    (addEntry e s).eng = s.eng ∧ (addEntry e s).tables = s.tables ∧ (addEntry e s).sweep = s.sweep ∧
    (addEntry e s).heads = s.heads ∧ (addEntry e s).log = s.log ∧ (addEntry e s).out = s.out ∧
    (addEntry e s).pending = s.pending :=
  ⟨rfl, rfl, rfl, rfl, rfl, rfl, rfl, rfl, rfl, rfl, rfl, rfl, rfl⟩

@[simp] theorem writeSlot_keeps (k : Nat) (f : Field) (s : State) :
    (writeSlot k f s).clock = s.clock ∧ (writeSlot k f s).straps = s.straps ∧ (writeSlot k f s).svc = s.svc ∧
    (writeSlot k f s).ctl = s.ctl ∧ (writeSlot k f s).drv = s.drv ∧ (writeSlot k f s).seq = s.seq ∧
    (writeSlot k f s).eng = s.eng ∧ (writeSlot k f s).tables = s.tables ∧ (writeSlot k f s).sweep = s.sweep ∧
    (writeSlot k f s).heads = s.heads ∧ (writeSlot k f s).log = s.log ∧ (writeSlot k f s).out = s.out ∧
    (writeSlot k f s).pending = s.pending :=
  ⟨rfl, rfl, rfl, rfl, rfl, rfl, rfl, rfl, rfl, rfl, rfl, rfl, rfl⟩

@[simp] theorem releaseClaim_keeps (s : State) :
    (releaseClaim s).clock = s.clock ∧ (releaseClaim s).straps = s.straps ∧ (releaseClaim s).svc = s.svc ∧
    (releaseClaim s).ctl = s.ctl ∧ (releaseClaim s).drv = s.drv ∧ (releaseClaim s).seq = s.seq ∧
    (releaseClaim s).eng = s.eng ∧ (releaseClaim s).tables = s.tables ∧ (releaseClaim s).sweep = s.sweep ∧
    (releaseClaim s).heads = s.heads ∧ (releaseClaim s).log = s.log ∧ (releaseClaim s).out = s.out ∧
    (releaseClaim s).pending = s.pending :=
  ⟨rfl, rfl, rfl, rfl, rfl, rfl, rfl, rfl, rfl, rfl, rfl, rfl, rfl⟩

@[simp] theorem dropStaging_keeps (s : State) :
    (dropStaging s).clock = s.clock ∧ (dropStaging s).straps = s.straps ∧ (dropStaging s).svc = s.svc ∧
    (dropStaging s).ctl = s.ctl ∧ (dropStaging s).drv = s.drv ∧ (dropStaging s).seq = s.seq ∧
    (dropStaging s).eng = s.eng ∧ (dropStaging s).tables = s.tables ∧ (dropStaging s).sweep = s.sweep ∧
    (dropStaging s).heads = s.heads ∧ (dropStaging s).log = s.log ∧ (dropStaging s).out = s.out ∧
    (dropStaging s).pending = s.pending :=
  ⟨rfl, rfl, rfl, rfl, rfl, rfl, rfl, rfl, rfl, rfl, rfl, rfl, rfl⟩

@[simp] theorem putLadder_keeps (k : Nat) (l : Ladder) (s : State) :
    (putLadder k l s).clock = s.clock ∧ (putLadder k l s).straps = s.straps ∧ (putLadder k l s).svc = s.svc ∧
    (putLadder k l s).ctl = s.ctl ∧ (putLadder k l s).drv = s.drv ∧ (putLadder k l s).map = s.map ∧
    (putLadder k l s).seq = s.seq ∧ (putLadder k l s).eng = s.eng ∧ (putLadder k l s).sweep = s.sweep ∧
    (putLadder k l s).heads = s.heads ∧ (putLadder k l s).log = s.log ∧ (putLadder k l s).out = s.out ∧
    (putLadder k l s).pending = s.pending :=
  ⟨rfl, rfl, rfl, rfl, rfl, rfl, rfl, rfl, rfl, rfl, rfl, rfl, rfl⟩

@[simp] theorem startViewSettle_keeps (s : State) :
    (startViewSettle s).clock = s.clock ∧ (startViewSettle s).straps = s.straps ∧ (startViewSettle s).svc = s.svc ∧
    (startViewSettle s).drv = s.drv ∧ (startViewSettle s).map = s.map ∧ (startViewSettle s).seq = s.seq ∧
    (startViewSettle s).eng = s.eng ∧ (startViewSettle s).tables = s.tables ∧ (startViewSettle s).sweep = s.sweep ∧
    (startViewSettle s).heads = s.heads ∧ (startViewSettle s).log = s.log ∧ (startViewSettle s).out = s.out ∧
    (startViewSettle s).pending = s.pending :=
  ⟨rfl, rfl, rfl, rfl, rfl, rfl, rfl, rfl, rfl, rfl, rfl, rfl, rfl⟩

@[simp] theorem markResting_keeps (s : State) :
    (markResting s).clock = s.clock ∧ (markResting s).straps = s.straps ∧ (markResting s).svc = s.svc ∧
    (markResting s).ctl = s.ctl ∧ (markResting s).map = s.map ∧ (markResting s).seq = s.seq ∧
    (markResting s).eng = s.eng ∧ (markResting s).tables = s.tables ∧ (markResting s).sweep = s.sweep ∧
    (markResting s).heads = s.heads ∧ (markResting s).log = s.log ∧ (markResting s).out = s.out ∧
    (markResting s).pending = s.pending :=
  ⟨rfl, rfl, rfl, rfl, rfl, rfl, rfl, rfl, rfl, rfl, rfl, rfl, rfl⟩

@[simp] theorem measureIndex_keeps (s : State) :
    (measureIndex s).clock = s.clock ∧ (measureIndex s).straps = s.straps ∧ (measureIndex s).svc = s.svc ∧
    (measureIndex s).ctl = s.ctl ∧ (measureIndex s).map = s.map ∧ (measureIndex s).seq = s.seq ∧
    (measureIndex s).eng = s.eng ∧ (measureIndex s).tables = s.tables ∧ (measureIndex s).sweep = s.sweep ∧
    (measureIndex s).heads = s.heads ∧ (measureIndex s).log = s.log ∧ (measureIndex s).out = s.out ∧
    (measureIndex s).pending = s.pending :=
  ⟨rfl, rfl, rfl, rfl, rfl, rfl, rfl, rfl, rfl, rfl, rfl, rfl, rfl⟩

@[simp] theorem relayIndex_keeps (s : State) :
    (relayIndex s).clock = s.clock ∧ (relayIndex s).straps = s.straps ∧ (relayIndex s).svc = s.svc ∧
    (relayIndex s).ctl = s.ctl ∧ (relayIndex s).map = s.map ∧ (relayIndex s).seq = s.seq ∧
    (relayIndex s).eng = s.eng ∧ (relayIndex s).tables = s.tables ∧ (relayIndex s).sweep = s.sweep ∧
    (relayIndex s).heads = s.heads ∧ (relayIndex s).log = s.log ∧ (relayIndex s).pending = s.pending :=
  ⟨rfl, rfl, rfl, rfl, rfl, rfl, rfl, rfl, rfl, rfl, rfl, rfl⟩

@[simp] theorem transfer_keeps (o : Op) (s : State) :
    (transfer o s).clock = s.clock ∧ (transfer o s).straps = s.straps ∧ (transfer o s).svc = s.svc ∧
    (transfer o s).drv = s.drv ∧ (transfer o s).map = s.map ∧ (transfer o s).seq = s.seq ∧
    (transfer o s).eng = s.eng ∧ (transfer o s).tables = s.tables ∧ (transfer o s).sweep = s.sweep ∧
    (transfer o s).heads = s.heads ∧ (transfer o s).log = s.log ∧ (transfer o s).out = s.out ∧
    (transfer o s).pending = s.pending :=
  ⟨rfl, rfl, rfl, rfl, rfl, rfl, rfl, rfl, rfl, rfl, rfl, rfl, rfl⟩

@[simp] theorem endRest_keeps (s : State) :
    (endRest s).clock = s.clock ∧ (endRest s).straps = s.straps ∧ (endRest s).svc = s.svc ∧
    (endRest s).ctl = s.ctl ∧ (endRest s).map = s.map ∧ (endRest s).seq = s.seq ∧ (endRest s).eng = s.eng ∧
    (endRest s).tables = s.tables ∧ (endRest s).sweep = s.sweep ∧ (endRest s).heads = s.heads ∧
    (endRest s).log = s.log ∧ (endRest s).out = s.out ∧ (endRest s).pending = s.pending :=
  ⟨rfl, rfl, rfl, rfl, rfl, rfl, rfl, rfl, rfl, rfl, rfl, rfl, rfl⟩

@[simp] theorem logIncident_keeps (k : IncidentKind) (s : State) :
    (logIncident k s).clock = s.clock ∧ (logIncident k s).straps = s.straps ∧ (logIncident k s).svc = s.svc ∧
    (logIncident k s).ctl = s.ctl ∧ (logIncident k s).drv = s.drv ∧ (logIncident k s).map = s.map ∧
    (logIncident k s).seq = s.seq ∧ (logIncident k s).eng = s.eng ∧ (logIncident k s).tables = s.tables ∧
    (logIncident k s).sweep = s.sweep ∧ (logIncident k s).heads = s.heads ∧ (logIncident k s).out = s.out ∧
    (logIncident k s).pending = s.pending :=
  ⟨rfl, rfl, rfl, rfl, rfl, rfl, rfl, rfl, rfl, rfl, rfl, rfl, rfl⟩

/-! ### The parts of a block an update leaves alone -/

@[simp] theorem respond_svc (tag : Nat) (r : Reply) (s : State) :
    (respond tag r s).svc.mode = s.svc.mode ∧ (respond tag r s).svc.geometry = s.svc.geometry ∧
      (respond tag r s).svc.params = s.svc.params :=
  ⟨rfl, rfl, rfl⟩

@[simp] theorem writeSlot_map (k : Nat) (f : Field) (s : State) :
    (writeSlot k f s).map.entries = s.map.entries ∧ (writeSlot k f s).map.claim = s.map.claim ∧
      (writeSlot k f s).map.staging = s.map.staging :=
  ⟨rfl, rfl, rfl⟩

@[simp] theorem setBody_map (a : Addr) (b : EntryBody) (s : State) :
    (setBody a b s).map.store = s.map.store ∧ (setBody a b s).map.claim = s.map.claim ∧
      (setBody a b s).map.staging = s.map.staging :=
  ⟨rfl, rfl, rfl⟩

@[simp] theorem updateJob_seq (a : Addr) (f : Job → Job) (s : State) :
    (updateJob a f s).seq.copies = s.seq.copies ∧ (updateJob a f s).seq.lastVote = s.seq.lastVote ∧
      (updateJob a f s).seq.workingRung = s.seq.workingRung :=
  ⟨rfl, rfl, rfl⟩

@[simp] theorem emptyHeadWork_queue (s : State) : (emptyHeadWork s).seq.queue = s.seq.queue := rfl

@[simp] theorem emit_out (x : Signal) (s : State) : (emit x s).out = s.out ++ [x] := rfl

end Sys2Proof.Machine
end

