-- ==== Sys2Proof/Laws/Ops.lean ====
section
/-!
SUPPORT. What each shared operation can do, said once: the parts of the state it may change and no others. Later proofs
cite these in place of unfolding the operation.
-/

namespace Sys2Proof.Machine

/-! ### Settling -/

/-- With nothing due at once, settling does nothing. -/
theorem settleN_still (n : Nat) {s : State} (h : NothingDue s) : settleN n s = s := by
  cases n with
  | zero => rfl
  | succ n => simp only [settleN, show nextAct s = none from h]

/-- With nothing due at once, settling does nothing. -/
theorem settle_still {s : State} (h : NothingDue s) : settle s = s := settleN_still _ h

/-- A property that every act keeps is kept by settling. -/
theorem settleN_induct {P : State → Prop} (hact : ∀ x s, P s → P (doAct x s)) (n : Nat) {s : State} (h : P s) :
    P (settleN n s) := by
  induction n generalizing s with
  | zero => exact h
  | succ n ih =>
    unfold settleN
    split
    · exact h
    · exact ih (hact _ _ h)

/-- A property that every act keeps is kept by settling. -/
theorem settle_induct {P : State → Prop} (hact : ∀ x s, P s → P (doAct x s)) {s : State} (h : P s) : P (settle s) :=
  settleN_induct hact _ h

/-- An act that is due is carried out first. -/
theorem settleN_act {x : Act} {s : State} (n : Nat) (h : nextAct s = some x) : settleN (n + 1) s = settleN n (doAct x s) := by
  simp only [settleN, h]

/-- The controller's relays are all that is left to do on the drive (R20, R131). -/
abbrev OnlyRelays (s : State) : Prop :=
  s.drv.holder = .controller ∧ s.drv.passOn = .stays ∧ s.drv.step = none ∧ s.drv.capture = none ∧ s.drv.episode = none ∧
    s.drv.travel = none ∧ s.ctl.withhold = none ∧ awaitsDrive s = false ∧ restDue s = false

/-- With an order held the next act is its relay; with none nothing is due (R20). -/
theorem nextAct_onlyRelays {s : State} (h : OnlyRelays s) :
    nextAct s = if s.drv.heldOrders ≠ [] then some .relay else none := by
  obtain ⟨h1, h2, h3, h4, h5, h6, h7, h8, h9⟩ := h
  simp [nextAct, restMeetsWithhold, limitEnds, sweepYields, holderAct, h1, h2, h3, h4, h5, h6, h7, h8, h9]

/-- An order that is no step leaves every order a step or not as it was (R121). -/
theorem issueOrder_quick {o : Order} {s : State} (quick : isStep o s = false) :
    ∃ l r, issueOrder o s = { s with drv.lines := l, drv.record := r, out := s.out ++ [.order o] } ∧
      r.offset = s.drv.record.offset := by
  cases o <;> simp_all [isStep, issueOrder, emit] <;> exact ⟨_, _, rfl, by simp_all⟩

/-- The relay of an order that is no step takes it off the held orders and leaves only relays to do. -/
theorem relay_quick {s : State} {o : Order} {os : List Order} (only : OnlyRelays s) (held : s.drv.heldOrders = o :: os)
    (quick : isStep o s = false) :
    OnlyRelays (doAct .relay s) ∧ (doAct .relay s).drv.heldOrders = os ∧ (doAct .relay s).out = s.out ++ [.order o] ∧
      ∀ x, isStep x (doAct .relay s) = isStep x s := by
  obtain ⟨l, r, issued, hr⟩ := issueOrder_quick (s := { s with drv.heldOrders := os }) quick
  have relayed : doAct .relay s = endUse { s with
      drv.heldOrders := os, drv.lines := l, drv.record := r, out := s.out ++ [.order o] } := by
    simp only [doAct, relayOrder, held]
    rw [if_neg (by simpa [isStep] using quick), issued]
  obtain ⟨h1, h2, h3, h4, h5, h6, h7, h8, h9⟩ := only
  rw [relayed, endUse, if_pos (.inl h1)]
  exact ⟨⟨h1, h2, h3, h4, h5, h6, h7, h8, h9⟩, rfl, rfl, fun x => by cases x <;> simp [isStep, hr]⟩

/-- Orders that are no steps, held behind a step, are all relayed inside one command, in the order taken, however many
there are (R20, R121). -/
theorem settle_relays (os : List Order) {s : State} (only : OnlyRelays s) (held : s.drv.heldOrders = os)
    (quick : ∀ o ∈ os, isStep o s = false) :
    NothingDue (settle s) ∧ (settle s).drv.heldOrders = [] ∧ (settle s).out = s.out ++ os.map .order := by
  suffices ∀ n s, OnlyRelays s → s.drv.heldOrders = os → (∀ o ∈ os, isStep o s = false) → os.length ≤ n →
      NothingDue (settleN n s) ∧ (settleN n s).drv.heldOrders = [] ∧ (settleN n s).out = s.out ++ os.map .order from
    this _ s only held quick (by simp [settleActs, held])
  clear only held quick s
  induction os with
  | nil =>
    intro n s only held _ _
    have still : NothingDue s := by simpa [held] using nextAct_onlyRelays only
    rw [settleN_still n still]
    exact ⟨still, held, by simp⟩
  | cons o os ih =>
    intro n s only held quick hn
    obtain ⟨n, rfl⟩ : ∃ m, n = m + 1 := ⟨n - 1, by simp at hn; omega⟩
    have due : nextAct s = some .relay := by simpa [held] using nextAct_onlyRelays only
    obtain ⟨only', held', out', same⟩ := relay_quick only held (quick o (by simp))
    rw [settleN_act n due]
    simpa [out'] using ih n _ only' held' (fun x hx => by rw [same]; exact quick x (by simp [hx])) (by simpa using hn)

/-! ### Time -/

/-- Passing time moves the clock and the limiter's counters, and nothing else. -/
theorem advance_changes (dt : Nat) (s : State) :
    ∃ w i, advance dt s = { s with clock := s.clock + dt, drv.work := w, drv.idle := i } := by
  unfold advance
  dsimp only
  split
  · split
    · split <;> exact ⟨_, _, rfl⟩
    · exact ⟨_, _, rfl⟩
  · exact ⟨_, _, rfl⟩

/-- While the limiter is off, passing time moves the clock alone (R141). -/
theorem advance_off (dt : Nat) {s : State} (h : limiterOn s.svc.params = false) :
    advance dt s = { s with clock := s.clock + dt } := by
  simp [advance, h]

/-- While the limiter is off, a command begins with its time passed and nothing driven. -/
theorem begin_off (dt : Nat) {s : State} (h : limiterOn s.svc.params = false) :
    begin dt s = { s with clock := s.clock + dt, out := [] } := by
  simp [begin, advance_off dt h]

/-- A command's beginning moves the clock, the limiter's counters and the signals, and nothing else. -/
theorem begin_changes (dt : Nat) (s : State) :
    ∃ w i, begin dt s = { s with clock := s.clock + dt, drv.work := w, drv.idle := i, out := [] } := by
  obtain ⟨w, i, h⟩ := advance_changes dt s
  exact ⟨w, i, by simp [begin, h]⟩

/-- A timer's expiry never moves the clock back. -/
theorem beginAt_changes (t : Nat) (s : State) :
    ∃ w i, beginAt t s = { s with clock := max s.clock t, drv.work := w, drv.idle := i, out := [] } := by
  obtain ⟨w, i, h⟩ := advance_changes (t - s.clock) s
  exact ⟨w, i, by simp [beginAt, advanceTo, h]; omega⟩

/-! ### The drive port -/

/-- An order issued to the drive changes the drive port and is driven onto its cable. -/
theorem issueOrder_changes (o : Order) (s : State) :
    ∃ d, issueOrder o s = { s with drv := d, out := s.out ++ [.order o] } := by
  unfold issueOrder emit
  cases o <;> dsimp only <;> (try split) <;> exact ⟨_, rfl⟩

/-- A step issued changes the drive port and is driven onto its cable. -/
theorem issueStep_changes (o : Order) (m : Option Move) (s : State) :
    ∃ d, issueStep o m s = { s with drv := d, out := s.out ++ [.order o] } := by
  obtain ⟨d, h⟩ := issueOrder_changes o s
  exact ⟨_, by simp only [issueStep, h]; rfl⟩

/-- A completed step changes the drive port alone. -/
theorem completeStep_changes (st : Step) (s : State) : ∃ d, completeStep st s = { s with drv := d } := by
  unfold completeStep
  cases st.order <;> exact ⟨_, rfl⟩

/-- Lowering READ GATE changes the drive port and drives at most the gate's fall. -/
theorem lowerReadGate_changes (s : State) :
    ∃ d, lowerReadGate s = { s with drv := d, out := s.out } ∨
      lowerReadGate s = { s with drv := d, out := s.out ++ [.readGate false] } := by
  unfold lowerReadGate emit
  split
  · exact ⟨_, .inr rfl⟩
  · exact ⟨_, .inl rfl⟩

/-- Lowering WRITE GATE changes the drive port and drives at most the gate's fall. -/
theorem lowerWriteGate_changes (s : State) :
    ∃ d, lowerWriteGate s = { s with drv := d, out := s.out } ∨
      lowerWriteGate s = { s with drv := d, out := s.out ++ [.writeGate false] } := by
  unfold lowerWriteGate emit
  split
  · exact ⟨_, .inr rfl⟩
  · exact ⟨_, .inl rfl⟩

/-- A change of holder changes the drive port alone. -/
theorem setHolder_changes (h : Holder) (s : State) : ∃ d, setHolder h s = { s with drv := d } := by
  unfold setHolder markResting
  dsimp only
  split <;> exact ⟨_, rfl⟩

/-- A controller use's end changes the drive port alone. -/
theorem endUse_changes (s : State) : ∃ d, endUse s = { s with drv := d } := by
  unfold endUse
  split <;> exact ⟨_, rfl⟩

/-- A dropped re-seat changes the drive port alone. -/
theorem dropReseat_changes (s : State) : ∃ d, dropReseat s = { s with drv := d } := by
  unfold dropReseat
  split
  · split <;> exact ⟨_, rfl⟩
  · exact ⟨_, rfl⟩

/-- A RECOVERED end that meets the re-seat at the beginning of withholding drops that re-seat, starts the quiet interval
and serves the read; the holder and a step in flight stay as they are (R37; log 61). -/
theorem withholdServed_during_reseat {s : State} {w : Withhold} {t : Travel} (a : Addr)
    (hw : s.ctl.withhold = some w) (hh : s.drv.holder = .controller) (ht : s.drv.travel = some t)
    (hp : t.purpose = .reseatWithhold) :
    withholdServed a s = { s with
      ctl.withhold := none
      ctl.report := some ⟨w.addr, .recovered, min ((s.clock - w.begun) / Config.ms) 4095⟩
      ctl.op := some { newOp .servedRead a .awaitingMatch with matchDue := some (s.clock + Config.ms) }
      drv.travel := none
      drv.quietDue := some (s.clock + s.svc.params.quietInterval * Config.ms) } := by
  simp [withholdServed, closeWithhold, dropReseat, endUse, beginServed, hw, hh, ht, hp]

/-- Abandoning a capture changes the drive port and drives at most the gate's fall. -/
theorem abandonCapture_changes (s : State) :
    ∃ d, abandonCapture s = { s with drv := d, out := s.out } ∨
      abandonCapture s = { s with drv := d, out := s.out ++ [.readGate false] } := by
  unfold abandonCapture
  split
  · split
    · exact ⟨_, .inl rfl⟩
    · exact lowerReadGate_changes _
  · exact ⟨_, .inl rfl⟩

/-- Dropping a party's work changes the drive port and drives at most the gate's fall. -/
theorem dropWork_changes (s : State) :
    ∃ d, dropWork s = { s with drv := d, out := s.out } ∨
      dropWork s = { s with drv := d, out := s.out ++ [.readGate false] } := by
  obtain ⟨d, h⟩ := abandonCapture_changes { s with drv.travel := none, drv.episode := none }
  exact ⟨d, h⟩

/-- Giving up the drive changes the drive port and drives at most the gate's fall. -/
theorem giveUp_changes (s : State) :
    ∃ d, giveUp s = { s with drv := d, out := s.out } ∨
      giveUp s = { s with drv := d, out := s.out ++ [.readGate false] } := by
  unfold giveUp
  split
  · obtain ⟨d, h | h⟩ := dropWork_changes s
    · dsimp only
      rw [h]
      split
      · split <;> exact ⟨_, .inl rfl⟩
      · obtain ⟨e, he⟩ := setHolder_changes .nobody { s with drv := d, out := s.out }
        exact ⟨e, .inl (by rw [he])⟩
    · dsimp only
      rw [h]
      split
      · split <;> exact ⟨_, .inr rfl⟩
      · obtain ⟨e, he⟩ := setHolder_changes .nobody { s with drv := d, out := s.out ++ [.readGate false] }
        exact ⟨e, .inr (by rw [he])⟩
  · exact ⟨_, .inl rfl⟩

/-- The controller's taking of the drive changes the drive port, lets the ACTIVE job wait, interrupts the sweep, and
drives at most the gate's fall. -/
theorem takeDrive_changes (s : State) :
    ∃ d q w o, takeDrive s = { s with drv := d, seq.queue := q, sweep := w, out := o } ∧
      (o = s.out ∨ o = s.out ++ [.readGate false]) := by
  unfold takeDrive
  dsimp only
  split
  · obtain ⟨w, hw⟩ : ∃ w, interruptSweep (standDown { s with drv.quietDue := none }) =
        { standDown { s with drv.quietDue := none } with sweep := w } := by
      unfold interruptSweep
      split <;> exact ⟨_, rfl⟩
    rw [hw]
    obtain ⟨d, h | h⟩ := dropWork_changes { standDown { s with drv.quietDue := none } with sweep := w }
    all_goals
      rw [h]
      split
      · exact ⟨_, _, _, _, rfl, by first | exact .inl rfl | exact .inr rfl⟩
      · obtain ⟨e, he⟩ := setHolder_changes .controller
          { standDown { s with drv.quietDue := none } with sweep := w, drv := d, out := _ }
        exact ⟨e, _, w, _, he, by first | exact .inl rfl | exact .inr rfl⟩
  · obtain ⟨d, h⟩ := setHolder_changes .controller { s with drv.quietDue := none, drv.passOn := .stays }
    exact ⟨d, _, _, _, h, .inl rfl⟩

/-- A fault episode's beginning changes the drive port and what is driven. -/
theorem startEpisode_changes (s : State) : ∃ d o, startEpisode s = { s with drv := d, out := o } := by
  unfold startEpisode
  obtain ⟨d, h | h⟩ := abandonCapture_changes s
  all_goals
    dsimp only
    rw [h]
    obtain ⟨e, he⟩ := issueOrder_changes .clear _
    exact ⟨e, _, he⟩

/-! ### Heads, log and sweep -/

/-- A head's change reaches the head records and at most the log. -/
theorem changeHead_changes (h : Nat) (f : HeadRecord → HeadRecord) (s : State) :
    ∃ hs l, changeHead h f s = { s with heads := hs, log := l } := by
  unfold changeHead
  split
  · exact ⟨_, _, rfl⟩
  · dsimp only
    split <;> exact ⟨_, _, rfl⟩

/-- A notice to the sweep changes the sweep's state and block cause alone. -/
theorem noticeSweep_changes (s : State) :
    ∃ st c, noticeSweep s = { s with sweep.state := st, sweep.cause := c } := by
  unfold noticeSweep
  split <;> exact ⟨_, _, rfl⟩

/-! ### The queue and the map -/

/-- Giving up the drive under a condition changes at most the drive port and what is driven. -/
theorem giveUp_if_changes (p : Prop) [Decidable p] (s : State) :
    ∃ d o, (if p then giveUp s else s) = { s with drv := d, out := o } := by
  split
  · obtain ⟨d, h | h⟩ := giveUp_changes s
    · exact ⟨d, _, h⟩
    · exact ⟨d, _, h⟩
  · exact ⟨_, _, rfl⟩

/-- Leaving the head changes the queue's records of the old head, empties the head's work, and changes the engine's
marks and the drive port. -/
theorem leaveHead_changes (old : Job) (s : State) :
    ∃ e d o, leaveHead old s =
      { s with
        seq := ⟨s.seq.queue.map fun j => if j.addr = old.addr then { j with state := .waiting, readsDone := 0 } else j,
          [], none, none⟩
        eng := e
        drv := d
        out := o } := by
  unfold leaveHead
  dsimp only
  split
  · obtain ⟨d, o, h⟩ := giveUp_if_changes (old.state ≠ .waiting ∧ _ = Holder.recovery) (markDiscard old.addr
      (emptyHeadWork (updateJob old.addr (fun j => { j with state := .waiting, readsDone := 0 }) s)))
    exact ⟨_, d, o, h⟩
  · obtain ⟨d, o, h⟩ := giveUp_if_changes (old.state ≠ .waiting ∧ _ = Holder.recovery)
      (emptyHeadWork (updateJob old.addr (fun j => { j with state := .waiting, readsDone := 0 }) s))
    exact ⟨_, d, o, h⟩

/-- A change of the queue changes the sequencer, the engine's marks and the drive port. -/
theorem reorder_changes (f : List Job → List Job) (s : State) :
    ∃ q e d o, reorder f s = { s with seq := q, eng := e, drv := d, out := o } := by
  unfold reorder
  dsimp only
  split
  · exact ⟨_, _, _, _, rfl⟩
  · split
    · exact ⟨_, _, _, _, rfl⟩
    · obtain ⟨e, d, o, h⟩ := leaveHead_changes _ { s with seq.queue := f s.seq.queue }
      exact ⟨_, e, d, o, h⟩

/-- The queue after a change is the changed queue, but for the record of a head that leaves its place (R70). -/
theorem reorder_queue (f : List Job → List Job) (s : State) :
    ∃ g : Job → Job, (∀ j, (g j).addr = j.addr ∧ (g j).cls = j.cls) ∧
      (reorder f s).seq.queue = (f s.seq.queue).map g := by
  unfold reorder
  dsimp only
  split
  · exact ⟨id, fun _ => ⟨rfl, rfl⟩, by simp⟩
  · split
    · exact ⟨id, fun _ => ⟨rfl, rfl⟩, by simp⟩
    · next old _ _ =>
      refine ⟨fun j => if j.addr = old.addr then { j with state := .waiting, readsDone := 0 } else j,
        fun j => by dsimp only; split <;> exact ⟨rfl, rfl⟩, ?_⟩
      obtain ⟨e, d, o, h⟩ := leaveHead_changes old { s with seq.queue := f s.seq.queue }
      rw [h]

/-- A settled image changes the map's entries, its store, and the slot a claim holds. -/
theorem settleInNewSlot_changes (a : Addr) (kind : Settled) (image : Field) (reads : Nat) (weak : Option Nat)
    (s : State) :
    ∃ e st c, settleInNewSlot a kind image reads weak s =
      { s with map.entries := e, map.store := st, map.claim := c } := by
  unfold settleInNewSlot passClaimSlot setBody writeSlot
  dsimp only
  split
  · split <;> exact ⟨_, _, _, rfl⟩
  · exact ⟨_, _, _, rfl⟩

/-! ### Rungs and the write lines -/

/-- Going on to the working rung sets a positioning, or changes nothing. -/
theorem goToRung_changes (s : State) : goToRung s = s ∨ ∃ t, goToRung s = { s with drv.travel := some t } := by
  unfold goToRung
  split
  · split
    · exact .inr ⟨_, rfl⟩
    · exact .inl rfl
  · exact .inl rfl

/-- A rung start that passes the test of R91 changes the sector's job record and the working rung alone. -/
theorem startRung_passes {a : Addr} {s : State} {j : Job} (hj : jobOf s a = some j)
    (h : skipWorn (isWorn s a.head) (ladderOf s j.ladder).rungs (ladderOf s j.ladder).rungs.length j.rungIndex <
      (ladderOf s j.ladder).rungs.length) :
    ∃ q w, startRung a s = { s with seq.queue := q, seq.workingRung := w } := by
  unfold startRung arriveRung
  simp only [hj, Nat.not_le.2 h, if_false]
  split <;> split <;> first | exact ⟨_, _, rfl⟩ | (split <;> exact ⟨_, _, rfl⟩)

/-- What passing bits on changes: what is driven, alone. -/
theorem passBits_changes (bits : List Bool) (s : State) : ∃ o, passBits bits s = { s with out := o } := by
  unfold passBits
  split <;> exact ⟨_, rfl⟩

/-- With no live write in transfer the drive's write lines are quiet (R17, R34). -/
theorem driveWriteLines_closed {s : State} (h : writePathOpen s = false) (data clock : Bool) :
    driveWriteLines data clock s = (false, false) := by
  simp [driveWriteLines, h]

end Sys2Proof.Machine
end

