-- ==== Sys2Proof/Laws/Store.lean ====
section
/-!
SUPPORT. The image store's list keeps its canonical form under every operation on it (R40), reset has it, and a slot
reads back what was put into it.
-/

namespace Sys2Proof.Machine

theorem Store.wf_iff (st : List (Nat × List Byte)) :
    Store.wf st = true ↔ st.Pairwise fun a b => a.1 < b.1 := by
  simp [Store.wf]

/-- Every slot listed after a put was listed before, or is the one put. -/
theorem mem_putSlot {k : Nat} {bytes : List Byte} {st : List (Nat × List Byte)} {x : Nat × List Byte}
    (h : x ∈ putSlot k bytes st) : x = (k, bytes) ∨ x ∈ st := by
  induction st with
  | nil => simpa [putSlot] using h
  | cons y ys ih =>
    unfold putSlot at h
    split at h
    · simpa using h
    · split at h
      · rcases List.mem_cons.1 h with h | h
        · exact .inl h
        · exact .inr (List.mem_cons_of_mem _ h)
      · rcases List.mem_cons.1 h with h | h
        · exact .inr (h ▸ List.mem_cons_self)
        · exact (ih h).imp id (List.mem_cons_of_mem _)

/-- A put keeps the slots strictly rising. -/
theorem putSlot_wf {k : Nat} {bytes : List Byte} {st : List (Nat × List Byte)} (h : Store.wf st = true) :
    Store.wf (putSlot k bytes st) = true := by
  rw [Store.wf_iff] at h ⊢
  induction st with
  | nil => simp [putSlot]
  | cons y ys ih =>
    rw [List.pairwise_cons] at h
    unfold putSlot
    split
    next hk =>
      refine List.pairwise_cons.2 ⟨fun b hb => ?_, List.pairwise_cons.2 h⟩
      rcases List.mem_cons.1 hb with rfl | hb
      · exact hk
      · exact Nat.lt_trans hk (h.1 b hb)
    next hk =>
      split
      next he => exact List.pairwise_cons.2 ⟨fun b hb => he ▸ h.1 b hb, h.2⟩
      next he =>
        refine List.pairwise_cons.2 ⟨fun b hb => ?_, ih h.2⟩
        rcases mem_putSlot hb with rfl | hb
        · show y.1 < k
          omega
        · exact h.1 b hb

/-- A drop keeps the slots strictly rising. -/
theorem dropSlot_wf {k : Nat} {st : List (Nat × List Byte)} (h : Store.wf st = true) :
    Store.wf (dropSlot k st) = true := by
  rw [Store.wf_iff] at h ⊢
  exact h.filter _

/-- The store right after reset lists nothing. -/
theorem reset_store_wf : Store.wf State.reset.map.store = true := by decide

/-- Writing an image into a slot keeps the store's form. -/
theorem writeSlot_wf {k : Nat} {f : Field} {s : State} (h : Store.wf s.map.store = true) :
    Store.wf (writeSlot k f s).map.store = true :=
  putSlot_wf h

/-- What a put leaves to find: the slot itself reads back its bytes, every other slot as before. -/
theorem find_putSlot (k j : Nat) (bytes : List Byte) (st : List (Nat × List Byte)) (h : Store.wf st = true) :
    (putSlot k bytes st).find? (fun x => decide (x.1 = j)) =
      if j = k then some (k, bytes) else st.find? fun x => decide (x.1 = j) := by
  rw [Store.wf_iff] at h
  induction st with
  | nil =>
    by_cases hj : j = k
    · simp [putSlot, hj]
    · have hk : k ≠ j := fun e => hj e.symm
      simp [putSlot, hj, hk]
  | cons y ys ih =>
    rw [List.pairwise_cons] at h
    have hys := ih h.2
    unfold putSlot
    split
    next hk =>
      by_cases hj : j = k
      · simp [hj]
      · have hk' : k ≠ j := fun e => hj e.symm
        simp [hj, hk']
    next hk =>
      split
      next he =>
        by_cases hj : j = k
        · simp [hj]
        · have hk' : k ≠ j := fun e => hj e.symm
          have hy : y.1 ≠ j := fun e => hj (e.symm.trans he.symm)
          simp [hj, hk', hy]
      next he =>
        by_cases hj : y.1 = j
        · have hjk : j ≠ k := fun e => he (e.symm.trans hj.symm)
          simp [hj, hjk]
        · simp [hj, hys]

end Sys2Proof.Machine
end

