-- ==== Sys2Proof/Tests/Slice0.lean ====
section
/-!
SUPPORT. Tests on small states: ill-formed commands the check refuses, figures worked in the manual (each test names the
chapter it takes them from), what a few commands do, and for each statement with hypotheses a state that meets them.
-/

open Sys2Proof Sys2Proof.Machine

namespace Sys2Proof.Tests

set_option Elab.async false

/-! ### Ill-formed commands -/

theorem test_wf_powerUp_rate : Instr.wf (.powerUp .b12 .w64 0 0 true true true true true) = false := by decide
theorem test_wf_position : Instr.wf (.position 0 1024) = false := by decide
theorem test_wf_position_last : Instr.wf (.position 0 1023) = true := by decide
theorem test_wf_head : Instr.wf (.head 0 16) = false := by decide
theorem test_wf_targets : Instr.wf (.targetRead 0 64) = false ∧ Instr.wf (.targetWrite 0 64) = false := by decide
theorem test_wf_field_length : Instr.wf (.writeFieldFull 0 (List.replicate 64 0)) = false := by decide +kernel
theorem test_wf_field_word : Instr.wf (.commandFrameRefused 0 (List.replicate 65 (2 ^ 18))) = false := by decide +kernel
theorem test_wf_capture_rate : Instr.wf (.captureFull 0 (List.replicate 65 0) 0) = false := by decide +kernel
theorem test_wf_unit : Instr.wf (.setGeometry 0 4096 1 1 1) = false ∧ Instr.wf (.setGeometry 0 1 1 1 4096) = false := by
  decide
theorem test_wf_units_of_commands :
    [Instr.setParameters 0 1 0 0 0 0 0 4096, .loadZone 0 1 0 0 0 0 4096, .clearZone 0 1 4096,
      .setLadderHeader 0 1 0 0 0 4096, .loadRung 0 1 0 0 0 4096, .clearLadder 0 1 4096, .setHead 0 1 0 0 0 4096,
      .startSweep 0 1 0 0 0 0 0 0 0 4096, .setSweepStop 0 1 0 4096, .abortSweep 0 4096, .queueSector 0 1 0 4096,
      .releaseEntry 0 1 0 4096, .exportPage 0 1 0 0 4096, .readMap 0 1 0 4096, .readQueue 0 1 4096,
      .readHealth 0 1 4096, .readLog 0 1 4096, .clearLog 0 4096, .readLadder 0 1 4096, .readZones 0 4096,
      .activate 0 4096, .captiveOn 0 4096, .captiveOff 0 4096, .passivate 0 4096].all (fun i => !i.wf) = true := by
  decide
theorem test_wf_body : Instr.wf (.importPage 0 1 0 0 0 (List.replicate 55 0)) = false := by decide +kernel

/-! ### Figures of the manual -/

/-- A field of the first four data words and a check word, the other sixty words 0: the sector cut of chapters 1 and 6. -/
def cut (a b c d check : Nat) : Field := [a, b, c, d] ++ List.replicate 60 0 ++ [check]

/-- Chapter 1, 1.5: the partial sums of the first worked figure. -/
theorem test_folded_sum : foldedSum 12 [0x123, 0x456, 0x789] = 3330 ∧ foldedSum 12 [0x123, 0x456, 0x789, 0xABC] = 1983 :=
  by decide
/-- Chapter 1, 1.5: the check word 0x840, and the field with one bit of it inverted. -/
theorem test_check_word : checkWord 12 [0x123, 0x456, 0x789, 0xABC] = 0x840 ∧
    passes 12 [0x123, 0x456, 0x789, 0xABC, 0x840] = true ∧ passes 12 [0x123, 0x456, 0x789, 0xABC, 0x841] = false := by
  decide
/-- Chapter 1, 1.5: the fold early in the sum and the blind spot. -/
theorem test_blind_spot : checkWord 12 [0xFFF, 0x001, 0x000, 0x800] = 0x7FE ∧
    passes 12 [0xFFF, 0x001, 0xFFF, 0x800, 0x7FE] = true := by decide
/-- R4: track 1,000 with 6 heads is cylinder 166, head 4. -/
theorem test_linear_track : 166 * 6 + 4 = 1000 ∧
    sweepAddr { State.reset with svc.geometry := some ⟨200, 6, 32⟩, sweep.next := 1000 } 3 = ⟨166, 4, 3⟩ := by decide
/-- Chapter 11: the SET GEOMETRY frame under B = 16 and W = 128. -/
theorem test_geometry_frame : encodeFrame (.setGeometry 0 0x102 812 10 32) = some [0xC3A, 1, 0x102, 812, 10, 32] ∧
    (frameField ⟨.b16, .w128, 0, 1000000⟩ [0xC3A, 1, 0x102, 812, 10, 32]).getLast? = some 0xEF6C := by
  decide +kernel
/-- R7: field position 0 is the most significant bit of byte 0, and the pad bits are 0. -/
theorem test_packed_image : packImage 12 [0x123, 0x456, 0x789] = [0x12, 0x34, 0x56, 0x78, 0x90] := by decide +kernel

/-- Chapter 6, the copies of the first worked case, oldest first. -/
def twoWrong : VoteInputs :=
  ⟨[cut 0x163 0x456 0x78B 0xABC 0x840, cut 0x123 0x456 0x78B 0xABC 0x840, cut 0x163 0x456 0x789 0xABC 0x840], 2, 6⟩
/-- Chapter 6, the two copies that tie, under a margin. -/
def tied (m : Nat) : VoteInputs :=
  ⟨[cut 0x163 0x456 0x789 0xABC 0x840, cut 0x123 0x457 0x789 0xABC 0x840], m, 6⟩
/-- Chapter 6, the copies with two passing combinations. -/
def twoPasses : VoteInputs :=
  ⟨[cut 0x122 0x45E 0x789 0xABC 0x840, cut 0x122 0x456 0x781 0xABC 0x840, cut 0x123 0x456 0x789 0xA9C 0x840], 2, 6⟩
/-- Chapter 6, copies of an erased sector. -/
def erased (n m : Nat) : VoteInputs := ⟨List.replicate n (cut 0 0 0 0 0), m, 6⟩
/-- Three copies that agree on the true field but for one bit of one copy: the vote passes at once (R110). -/
def agreed : VoteInputs :=
  ⟨[cut 0x123 0x456 0x789 0xABC 0x840, cut 0x123 0x456 0x789 0xABC 0x840, cut 0x123 0x457 0x789 0xABC 0x840], 2, 6⟩
/-- The vote made of inputs under the straps of reset. -/
def voteOf (inp : VoteInputs) : Vote := startVote Straps.chosen ⟨0, 0, 0⟩ inp false

/-- Chapter 6, two wrong bits found by search. -/
theorem test_vote_search : (voteOf twoWrong).weakBits = [5, 34] ∧
    voteEnd Straps.chosen (voteOf twoWrong) = .acceptedSearch (cut 0x123 0x456 0x789 0xABC 0x840) 2 := by decide +kernel
/-- Chapter 6, a tie between two copies: the newest copy's bits, then one flip. -/
theorem test_vote_tie : (voteOf (tied 2)).image = cut 0x123 0x457 0x789 0xABC 0x840 ∧
    (voteOf (tied 2)).weakBits = [5, 23] ∧
    voteEnd Straps.chosen (voteOf (tied 2)) = .acceptedSearch (cut 0x123 0x456 0x789 0xABC 0x840) 1 := by decide +kernel
/-- Chapter 6, the same copies under M = 3: too weak. -/
theorem test_vote_too_weak : voteEnd Straps.chosen (voteOf (tied 3)) = .tooWeak ∧ (voteOf (tied 3)).weakBits = [] := by
  decide +kernel
/-- Chapter 6, two passing combinations. -/
theorem test_vote_ambiguous : (voteOf twoPasses).weakBits = [11, 20, 32, 42] ∧
    voteEnd Straps.chosen (voteOf twoPasses) = .ambiguous := by decide +kernel
/-- Chapter 6, an erased sector. -/
theorem test_vote_erased : voteEnd Straps.chosen (voteOf (erased 3 2)) = .failed ∧
    voteEnd Straps.chosen (voteOf (erased 2 3)) = .tooWeak := by decide +kernel
/-- R141's table of codes. -/
theorem test_code_duration : codeDuration 1 = 5000000 ∧ codeDuration 240 = 1200000000 ∧ codeDuration 241 = 1800000000 ∧
    codeDuration 250 = 18000000000 ∧ codeDuration 251 = 28800000000 ∧ codeDuration 255 = 28800000000 := by decide

/-! ### Command frames, unit by unit from R206 -/

theorem test_frame_queueSector : decodeFrame ([0xC3A, 12, 7, 455, 1 * 64 + 8] ++ List.replicate 59 0) =
    some (.queueSector 0 7 455 72) := by decide
theorem test_frame_passivate : decodeFrame ([0xC3A, 26, 9] ++ List.replicate 61 0) = some (.passivate 0 9) := by decide
theorem test_frame_code_27 : decodeFrame ([0xC3A, 27, 9] ++ List.replicate 61 0) = none := by decide
theorem test_table_word : decodeTableWord 16 0x1234 = none := by decide
theorem test_withFetchWord : State.reset.withFetchWord 16 0x1234 = State.reset := by decide +kernel
/-- R178: the NO COMMAND frame is a frame like any other. -/
theorem test_noCommandFrame : noCommandFrame Straps.chosen = frameField Straps.chosen [0x3AC, 0, 10] := by decide +kernel

/-! ### States for the tests -/

/-- ACTIVE mode over 3 cylinders, 2 heads and 4 sectors, the drive TURNING and standing where the view does. -/
def base : State :=
  { State.reset with
    svc.mode := .active
    svc.geometry := some ⟨3, 2, 4⟩
    ctl.shownOnCylinder := true
    drv.lines := ⟨true, true, false, false, false⟩
    drv.condition := .turning
    drv.genNext := none
    drv.record := ⟨some 0, some 0, some .nominal, some .centre⟩ }
/-- The same in PASSIVE mode. -/
def passive : State := { base with svc.mode := .passive }
/-- The same in CAPTIVE mode. -/
def captive : State := { base with svc.mode := .captive }
/-- The view moved to V. -/
def onV (s : State) : State := { s with ctl.cyl := 1020 }
/-- The controller holds the drive. -/
def held (s : State) : State := { s with drv.holder := .controller }
/-- A controller operation under way. -/
def during (kind : OpKind) (a : Addr) (phase : Phase) (s : State) : State :=
  { s with ctl.op := some (newOp kind a phase) }
/-- A command frame can arrive, whoever holds the drive. -/
def commanded (s : State) : State := onV (during .serviceWrite ⟨1020, 0, 0⟩ .transferring s)
/-- A command frame can arrive, and the controller holds the drive. -/
def writing (s : State) : State := held (commanded s)
/-- An entry in the map, its slot holding the field of zeros. -/
def mapped (a : Addr) (b : EntryBody) (s : State) : State :=
  { s with
    map.entries := insertEntry ⟨a, .controller, b⟩ s.map.entries
    map.store := match b.slot? with
      | some k => putSlot k (packImage 12 (zeroField Straps.chosen)) s.map.store
      | none => s.map.store }
/-- A job of ladder 0. -/
def jobAt (a : Addr) (cls : JobClass) (state : JobState) : Job := ⟨a, cls, 0, 0, 0, 0, 0, state, none, .controller, false⟩
/-- A PENDING entry with its job at the queue's tail. -/
def queuedAt (a : Addr) (cls : JobClass) (state : JobState) (s : State) : State :=
  { mapped a .pending s with seq.queue := s.seq.queue ++ [jobAt a cls state] }
/-- A capture in flight. -/
def capturing (party : Party) (a : Addr) (m : Bool) (s : State) : State :=
  { s with drv.capture := some ⟨party, a, m, 0⟩, drv.readGate := m }
/-- The limiter on: work and rest of 5 seconds. -/
def limited (s : State) : State := { s with svc.params.workCode := 1, svc.params.restCode := 1 }
/-- A good field, and one whose first data word has a bit inverted. -/
def good : Field := cut 0x123 0x456 0x789 0xABC 0x840
/-- A failing field. -/
def bad : Field := cut 0x122 0x456 0x789 0xABC 0x840

/-- What a command leaves, where it answers a next state. -/
def after (c : Instr) (s : State) : State :=
  match exec c s with
  | .next t => t
  | .fault _ => s
  | .refused _ => s
/-- Does a property hold of what a command leaves? -/
def leaves (c : Instr) (s : State) (p : State → Bool) : Bool :=
  match exec c s with
  | .next t => p t
  | .fault _ => false
  | .refused _ => false

/-! ### Witnesses: the hypotheses of each statement can be met -/

theorem witness_FoldedSumRule : 0 < 12 ∧ ∀ w ∈ [0xFFF, 0x001], w < 2 ^ 12 := by decide
theorem witness_CheckPassesExactly : 1 < 12 ∧ (∀ w ∈ [0x123, 0x456, 0x789, 0xABC, 0x840], w < 2 ^ 12) ∧
    passes 12 [0x123, 0x456, 0x789, 0xABC, 0x840] = true := by decide
theorem witness_CheckLimitCases : 1 < 12 ∧ foldedSum 12 [0xFFF] = 2 ^ 12 - 1 := by decide
theorem witness_PackedImageUnpacks : 0 < 12 ∧ ∀ w ∈ [0x123, 0x456, 0xFFF], w < 2 ^ 12 := by decide
theorem witness_SlotReadsBack : Store.wf (mapped ⟨0, 0, 0⟩ (.settled .lost 1 none 3) base).map.store = true ∧
    good.length = base.straps.data + 1 ∧ ∀ w ∈ good, w < 2 ^ base.straps.bits := by decide +kernel
theorem witness_VotedImageIsMajority : (tied 2).copies.getLast? = some (cut 0x123 0x457 0x789 0xABC 0x840) ∧
    (∀ f ∈ (tied 2).copies, f.length = Straps.chosen.data + 1) ∧
    779 < (Straps.chosen.data + 1) * Straps.chosen.bits := by decide +kernel
theorem witness_WeakBitsAreCounted : (∀ f ∈ twoWrong.copies, f.length = Straps.chosen.data + 1) ∧
    (voteOf twoWrong).weakCount = 2 := by decide +kernel
/-- The combinations 1 to 2^w − 1 of a vote that pass. -/
def found (inp : VoteInputs) : List Nat :=
  (List.range (2 ^ (voteOf inp).weakCount)).filter fun c =>
    decide (0 < c) && passes 12 (combinationOf 12 (voteOf inp).image (voteOf inp).weakBits c)
theorem witness_VoteEndsByItsPasses :
    passes 12 (voteOf agreed).image = true ∧
    (passes 12 (voteOf (erased 3 2)).image = false ∧ (voteOf (erased 3 2)).weakCount = 0) ∧
    (passes 12 (voteOf (tied 3)).image = false ∧ (tied 3).l < (voteOf (tied 3)).weakCount) ∧
    (passes 12 (voteOf twoWrong).image = false ∧ (voteOf twoWrong).weakCount ≤ twoWrong.l ∧ found twoWrong = [3]) ∧
    (passes 12 (voteOf twoPasses).image = false ∧ 2 ≤ (found twoPasses).length) := by decide +kernel
/-- Copies that search in vain: two weak bits, both of the wrong weight. -/
def inVain : VoteInputs :=
  ⟨[cut 0x163 0x456 0x789 0xABC 0x842, cut 0x163 0x457 0x789 0xABC 0x842, cut 0x163 0x456 0x789 0xABC 0x842], 2, 6⟩
theorem witness_VoteEndsByItsPasses_none : passes 12 (voteOf inVain).image = false ∧
    0 < (voteOf inVain).weakCount ∧ (voteOf inVain).weakCount ≤ inVain.l ∧ found inVain = [] := by decide +kernel
theorem witness_FrameDecodesToItsCommand :
    Instr.wf (.importPage 0 4095 2 3 1 (List.replicate 56 4095)) = true ∧
    bodyFits Straps.chosen (.importPage 0 4095 2 3 1 (List.replicate 56 4095)) = true ∧
    encodeFrame (.importPage 0 4095 2 3 1 (List.replicate 56 4095)) =
      some ([0xC3A, 14, 4095, 2, 3, 1, 0, 0] ++ List.replicate 56 4095) := by decide +kernel
theorem witness_WrittenFrameActsAsItsCommand : Instr.wf (.activate 0 5) = true ∧
    bodyFits (writing base).straps (.activate 0 5) = true ∧ encodeFrame (.activate 0 5) = some [0xC3A, 23, 5] ∧
    acceptsFrame (writing base) = true := by decide +kernel
theorem witness_DamagedFrameIsRefused : acceptsFrame (writing base) = true ∧
    passes 12 (takeField (writing base).straps bad) = false ∧
    (passes 12 (takeField (writing base).straps good) = true ∧ good.getD 0 0 % 4096 ≠ 0xC3A) ∧
    (∀ code ∈ [0, 27, 4095],
      passes 12 (takeField (writing base).straps (frameField Straps.chosen [0xC3A, code, 7])) = true ∧
      (frameField Straps.chosen [0xC3A, code, 7]).getD 1 0 % 4096 = code) := by decide +kernel

/-- An invariant's hypotheses: a log with one incident, one worn head, two entries and a job, and a step from there. -/
def kept : State :=
  { queuedAt ⟨0, 0, 1⟩ .foreground .waiting (mapped ⟨0, 0, 0⟩ (.settled .lost 1 none 0) base) with
    log := ⟨(some ⟨.driveLost, 3, []⟩) :: List.replicate 7 none, 1, 1, 1⟩
    heads := ⟨40, 40, true, 1, 1, 1⟩ :: List.replicate 15 HeadRecord.fresh
    ctl.recentOrders := [⟨.head 1, 0⟩]
    seq.copies := [good]
    drv.holder := .controller
    pending := [.position 10 2] }
theorem witness_MapAndQueueAreKept_room : RoomOk kept ∧ ClaimOk kept ∧ OperationOk kept := by
  refine ⟨by unfold RoomOk; decide +kernel, ?_, ?_⟩
  · simp [ClaimOk, kept, queuedAt, mapped, base, State.reset, State.poweredUp, Controller.fresh]
  · simp [OperationOk, kept, queuedAt, mapped, base, State.reset, State.poweredUp, Controller.fresh, DrivePort.fresh]
theorem witness_LogFormIsKept : LogOk kept.log := by unfold LogOk; decide
theorem witness_HeadRecordsAreKept : HeadsOk kept := by unfold HeadsOk HeadOk; decide
theorem witness_MapAndQueueAreKept : MapOk kept ∧ QueueOk kept ∧ JobsMatch kept := by
  refine ⟨by unfold MapOk; decide, by unfold QueueOk; decide, fun a => ?_⟩
  simp [kept, queuedAt, mapped, jobAt, insertEntry, Addr.lt, base, State.reset, State.poweredUp]
theorem witness_StoreFormIsKept : Store.wf kept.map.store = true := by decide +kernel
theorem witness_ListBoundsAreKept : ListsOk kept := by unfold ListsOk; decide
theorem witness_invariant_step : (step kept).casesOn (motive := fun _ => Bool) (fun t => decide (t.ctl.cyl = 2))
    (fun _ => false) (fun _ => false) = true := by decide +kernel
theorem witness_NoWriteReachesDrive : NoWriteUnderWay (during .servedWrite ⟨0, 0, 0⟩ .transferring base) := by
  simp [NoWriteUnderWay, during, newOp, base, State.reset, State.poweredUp, DrivePort.fresh]

/-! ### Witnesses: the orders -/

theorem witness_PositionMovesTheView :
    (∀ s ∈ [base, captive, onV passive, passive], Unoccupied (begin 1000 s)) ∧
    base.svc.mode ≠ .passive ∧ 1020 = serviceCylinder passive ∧ 2 ≠ serviceCylinder base ∧
    realCylinder base 2 = true ∧ realCylinder base 3 = false := by decide +kernel
theorem witness_PositioningIsRelayed : passive.svc.mode = .passive ∧ DriveFree (begin 1000 passive) ∧
    1021 ≠ serviceCylinder passive := by decide +kernel
theorem witness_HeadSelects :
    (∀ s ∈ [base, captive, onV passive], Unoccupied (begin 1000 s) ∧
      (s.svc.mode ≠ .passive ∨ s.ctl.cyl = serviceCylinder s)) ∧
    DriveFree (begin 1000 passive) ∧ passive.ctl.cyl ≠ serviceCylinder passive := by decide +kernel
/-- The drive's offset is OUT. -/
def outside : State := { passive with drv.record.offset := some .outward }
theorem witness_MarginSets :
    (∀ s ∈ [onV passive, captive], Unoccupied (begin 1000 s)) ∧
    (Unoccupied (begin 1000 base) ∧ realCylinder base 0 = true ∧ Offset.outward ≠ base.ctl.offset ∧
      base.ctl.errorCleared = false) ∧
    (DriveFree (begin 1000 outside) ∧ (begin 1000 outside).drv.record.offset = some .outward) ∧
    (DriveFree (begin 1000 passive) ∧ (begin 1000 passive).drv.record.offset ≠ some .outward) := by decide +kernel
/-- The drive's POSITION ERROR is raised. -/
def astray (s : State) : State := { s with drv.lines.positionError := true, drv.lines.onCylinder := false }
theorem witness_ClearClears :
    (∀ s ∈ [base, captive, onV (astray base), onV passive], Unoccupied (begin 1000 s)) ∧
    (∀ s ∈ [astray base, astray captive, passive], DriveFree (begin 1000 s)) ∧
    (begin 1000 (astray base)).drv.condition = .turning ∧
    (begin 1000 (astray base)).drv.lines.positionError = true := by decide +kernel
theorem witness_TargetsAreServed :
    (∀ s ∈ [onV base, onV passive, onV captive, mapped ⟨0, 0, 3⟩ (.settled .overlay 0 none 0) base,
        mapped ⟨0, 0, 3⟩ (.settled (.recovered .vote) 3 none 0) base],
      Unoccupied (begin 1000 s) ∧ s.ctl.shownOnCylinder = true) ∧
    realAddr base ⟨0, 0, 3⟩ = true ∧
    entryStateCode (mapped ⟨0, 0, 3⟩ (.settled .overlay 0 none 0) base) ⟨0, 0, 3⟩ = 4 ∧
    entryStateCode (mapped ⟨0, 0, 3⟩ (.settled (.recovered .vote) 3 none 0) base) ⟨0, 0, 3⟩ = 2 := by decide +kernel
theorem witness_TargetsAreIgnored :
    (∀ s ∈ [{ base with ctl.shownOnCylinder := false }, captive, base], Unoccupied (begin 1000 s)) ∧
    captive.ctl.cyl ≠ serviceCylinder captive ∧ realAddr base ⟨0, 0, 4⟩ = false := by decide +kernel
/-- The drive stands on another cylinder than the view. -/
def elsewhere (s : State) : State := { s with drv.record.cyl := some 2 }
/-- The drive is LOST. -/
def lost (s : State) : State := { s with drv.condition := .lost, drv.lines.ready := false, drv.genNext := some 25000 }
/-- Sector 3 is PENDING and withholding is turned off. -/
def notWithheld : State :=
  { mapped ⟨0, 0, 3⟩ .pending base with svc.params.withholdLimit := 0 }
/-- The drive stands on the view's cylinder with another head and strobe, or with another offset. -/
def otherHead (s : State) : State := { s with drv.record.head := some 1, drv.record.strobe := some .late }
theorem witness_LiveTargetsReachDrive :
    (∀ s ∈ [lost base, base, astray passive, elsewhere passive, elsewhere base, otherHead base, outside, notWithheld,
        mapped ⟨0, 0, 3⟩ (.settled .lost 3 none 0) base],
      DriveFree (begin 1000 s) ∧ s.ctl.shownOnCylinder = true ∧ s.ctl.cyl ≠ serviceCylinder s) ∧
    realAddr base ⟨0, 0, 3⟩ = true ∧ entryStateCode base ⟨0, 0, 3⟩ = 0 ∧
    entryStateCode notWithheld ⟨0, 0, 3⟩ = 1 ∧
    entryStateCode (mapped ⟨0, 0, 3⟩ (.settled .lost 3 none 0) base) ⟨0, 0, 3⟩ = 3 ∧
    (begin 1000 base).drv.record = ⟨some 0, some 0, some .nominal, some .centre⟩ ∧
    (begin 1000 (elsewhere base)).drv.record.cyl ≠ some 0 ∧
    (otherHead base).drv.record.cyl = some 0 ∧ (otherHead base).drv.record.offset = some .centre ∧
    outside.drv.record.cyl = some 0 ∧ outside.drv.record.offset ≠ some .centre := by decide +kernel
/-- A job's step in flight. -/
def rungStepping : State :=
  { queuedAt ⟨2, 0, 3⟩ .background .active base with
    seq.workingRung := some ⟨.nominal, .centre, 3, false, false, true, .cont⟩
    drv.holder := .recovery
    drv.step := some ⟨.position 2, some .reach, 0, 600000, false⟩
    drv.travel := some ⟨.rung, 2, 0, .nominal, .centre, [.select, .margin], true, none⟩ }
theorem witness_LiveTargetsReachDrive_taken :
    ∀ s ∈ [rungStepping, { rungStepping with drv.step := none }, capturing .recovery ⟨2, 0, 3⟩ true rungStepping,
        { base with drv.holder := .sweep, sweep := { Sweep.fresh with state := .sweeping } }],
      s.ctl.shownOnCylinder = true ∧ s.ctl.cyl ≠ serviceCylinder s ∧ s.ctl.op = none ∧ s.ctl.withhold = none ∧
      s.drv.holder.isDevice = true ∧ s.drv.passOn = .stays ∧ s.drv.heldOrders = [] ∧ restDue (begin 1000 s) = false ∧
      (s.drv.capture.all fun c => decide (c.party ≠ .live)) = true ∧ s.svc.mode = .active ∧
      s.drv.condition = .turning ∧ realAddr s ⟨0, 0, 1⟩ = true ∧ entryStateCode s ⟨0, 0, 1⟩ = 0 ∧
      (begin 1000 s).drv.record = ⟨some 0, some 0, some .nominal, some .centre⟩ := by decide +kernel
/-- Two PENDING sectors in the queue, the drive elsewhere, held by the controller. -/
def waitingTwo : State :=
  held (elsewhere (queuedAt ⟨0, 0, 3⟩ .background .waiting (queuedAt ⟨0, 0, 1⟩ .background .waiting base)))
theorem witness_PendingReadIsWithheld :
    DriveFree (begin 1000 waitingTwo) ∧ waitingTwo.ctl.shownOnCylinder = true ∧
    waitingTwo.ctl.cyl ≠ serviceCylinder waitingTwo ∧ waitingTwo.svc.mode = .active ∧
    realAddr waitingTwo ⟨0, 0, 3⟩ = true ∧ entryOf waitingTwo ⟨0, 0, 3⟩ = some ⟨⟨0, 0, 3⟩, .controller, .pending⟩ ∧
    jobOf waitingTwo ⟨0, 0, 3⟩ = some (jobAt ⟨0, 0, 3⟩ .background .waiting) ∧
    0 < waitingTwo.svc.params.withholdLimit ∧ (begin 1000 waitingTwo).drv.condition = .turning ∧
    (begin 1000 waitingTwo).drv.resting = false ∧ (begin 1000 waitingTwo).drv.record.cyl ≠ some 0 := by decide +kernel

/-! ### Witnesses: gates and written fields -/

/-- A slot that serves sector 3. -/
def served : State := mapped ⟨0, 0, 3⟩ (.settled .overlay 0 none 0) base
/-- A status frame built at MATCH. -/
def statusRead : State :=
  { onV base with ctl.op := some { newOp .serviceRead ⟨1020, 0, 1⟩ .awaitingGate with built := some good } }
theorem witness_ReadGateBeginsTransfer :
    (∀ s ∈ [during .servedRead ⟨0, 0, 3⟩ .awaitingGate served, during .serviceRead ⟨1020, 0, 0⟩ .awaitingGate base,
        statusRead, during .serviceRead ⟨1020, 0, 2⟩ .awaitingGate base,
        during .liveRead ⟨0, 0, 3⟩ .awaitingGate base],
      s.ctl.op.map Op.phase = some .awaitingGate) ∧
    entryOf served ⟨0, 0, 3⟩ = some ⟨⟨0, 0, 3⟩, .controller, .settled .overlay 0 none 0⟩ := by decide +kernel
theorem witness_ReadTransfersEnd :
    NothingDue (begin 1000 (during .servedRead ⟨0, 0, 3⟩ .transferring served)) ∧
    ControllerHas (begin 1000 (capturing .live ⟨0, 0, 3⟩ true (held (during .liveRead ⟨0, 0, 3⟩ .transferring base)))) ∧
    ControllerHas (begin 1000 (held (during .liveRead ⟨0, 0, 3⟩ .transferring base))) := by decide +kernel
/-- A map of 1,024 entries, every slot in use: cylinder 0 to 31 of 2 heads and 16 sectors. -/
def fullMap (s : State) : State :=
  { s with map.entries := (List.range 1024).map fun k =>
      ⟨⟨k / 32, k / 16 % 2, k % 16⟩, .controller, .settled .overlay 0 none k⟩ }
/-- A map whose last slot is free but no entry: one PENDING sector. -/
def lastSlot (s : State) : State :=
  { s with map.entries := (List.range 1024).map fun k =>
      ⟨⟨k / 32, k / 16 % 2, k % 16⟩, .controller, if k = 1023 then .pending else .settled .overlay 0 none k⟩ }
/-- Every slot in use, and a claim holding the last one while a PENDING sector waits. -/
def claimedSlot (s : State) : State := { lastSlot s with map.claim := some ⟨⟨0, 0, 0⟩, false, some 1023⟩ }
theorem witness_WriteGateClaims :
    (entryStateCode (fullMap base) ⟨40, 0, 0⟩ = 0 ∧ freeEntries (fullMap base) = 0) ∧
    (entryStateCode base ⟨0, 0, 3⟩ = 0 ∧ 0 < freeEntries base ∧ 0 < freeSlots base) ∧
    (entryStateCode (claimedSlot base) ⟨31, 1, 15⟩ = 1 ∧ freeSlots (claimedSlot base) = 0) ∧
    (entryStateCode (lastSlot base) ⟨31, 1, 15⟩ = 1 ∧ 0 < freeSlots (lastSlot base)) ∧
    2 ≤ entryStateCode served ⟨0, 0, 3⟩ := by decide +kernel
/-- A map with room for one more entry, and with one slot free. -/
def lastRoom (s : State) : State :=
  { s with map.entries := (List.range 1023).map fun k =>
      ⟨⟨k / 32, k / 16 % 2, k % 16⟩, .controller, .settled .overlay 0 none k⟩ }
theorem witness_WriteGateClaims_protect :
    (freeEntries (lastRoom base) = 1 ∧ freeSlots (lastRoom base) = 1 ∧ shownProtect (lastRoom base) = false) ∧
    (freeEntries (lastSlot base) = 0 ∧ freeSlots (lastSlot base) = 1 ∧ shownProtect (lastSlot base) = true) ∧
    (∀ s ∈ [lastRoom base, lastSlot base, base, served], s.map.claim = none ∧ s.svc.mode ≠ .passive) ∧
    shownProtect (fullMap base) = true ∧ shownProtect base = false := by decide +kernel
theorem witness_FreeSlotIsLowest : 0 < freeSlots (lastSlot base) ∧ 0 < freeSlots served := by decide +kernel
theorem witness_WritesEnd :
    NothingDue (begin 1000 (during .servedWrite ⟨0, 0, 3⟩ .transferring base)) ∧
    NothingDue (begin 1000 { base with
      ctl.op := some { newOp .servedWrite ⟨0, 0, 3⟩ .awaitingGate with gateRefused := true } }) ∧
    NothingDue (begin 1000 (onV (during .serviceWrite ⟨1020, 0, 0⟩ .transferring base))) ∧
    ControllerHas (begin 1000 (held (during .liveWrite ⟨0, 0, 3⟩ .transferring passive))) := by decide +kernel
/-- A served write in transfer with its claim. -/
def claiming (entry : Bool) (slot : Option Nat) (s : State) : State :=
  { during .servedWrite ⟨0, 0, 3⟩ .transferring s with map.claim := some ⟨⟨0, 0, 3⟩, entry, slot⟩ }
/-- A PENDING sector 3 behind another job. -/
def pendingThird : State := held (queuedAt ⟨0, 0, 3⟩ .background .waiting (queuedAt ⟨0, 0, 1⟩ .background .waiting base))
/-- A PENDING sector 3 whose job holds the drive. -/
def activeThird (x : JobState) : State := { queuedAt ⟨0, 0, 3⟩ .background x base with drv.holder := .recovery }
/-- A PENDING sector 3 whose job is the head, before another. -/
def pendingHead : State := held (queuedAt ⟨0, 0, 1⟩ .background .waiting (queuedAt ⟨0, 0, 3⟩ .background .waiting base))
theorem witness_FullWriteIsAbsorbed :
    (∀ s ∈ [claiming true (some 0) base, claiming false none served, claiming false (some 0) pendingThird],
      NothingDue (begin 1000 s) ∧ Store.wf s.map.store = true) ∧
    entryOf base ⟨0, 0, 3⟩ = none ∧
    entryOf served ⟨0, 0, 3⟩ = some ⟨⟨0, 0, 3⟩, .controller, .settled .overlay 0 none 0⟩ ∧
    entryOf pendingThird ⟨0, 0, 3⟩ = some ⟨⟨0, 0, 3⟩, .controller, .pending⟩ ∧
    jobOf pendingThird ⟨0, 0, 3⟩ = some (jobAt ⟨0, 0, 3⟩ .background .waiting) ∧
    (headJob pendingThird).map Job.addr ≠ some ⟨0, 0, 3⟩ ∧ pendingThird.sweep.state ≠ .blocked := by decide +kernel
theorem witness_FullWriteIsAbsorbed_head :
    (NothingDue (begin 1000 (claiming false (some 0) pendingHead)) ∧
      pendingHead.seq.queue = [jobAt ⟨0, 0, 3⟩ .background .waiting, jobAt ⟨0, 0, 1⟩ .background .waiting] ∧
      pendingHead.drv.holder = .controller ∧ Store.wf pendingHead.map.store = true ∧
      entryOf pendingHead ⟨0, 0, 3⟩ = some ⟨⟨0, 0, 3⟩, .controller, .pending⟩) ∧
    (∀ s ∈ [claiming false (some 0) (activeThird .active), claiming false (some 0) (activeThird .voting)],
      NothingDue (begin 1000 s) ∧ s.seq.queue.map Job.addr = [⟨0, 0, 3⟩] ∧ s.sweep.state = .idle ∧
      s.drv.holder = .recovery ∧ s.ctl.withhold = none ∧ s.drv.passOn = .stays ∧ s.drv.step = none ∧
      s.drv.capture = none ∧ restDue (begin 1000 s) = false ∧
      (jobOf s ⟨0, 0, 3⟩).map Job.addr = some ⟨0, 0, 3⟩ ∧
      entryOf s ⟨0, 0, 3⟩ = some ⟨⟨0, 0, 3⟩, .controller, .pending⟩) := by decide +kernel

/-! ### Witnesses: the service commands -/

theorem witness_frame : ∀ s ∈ [base, passive, captive], acceptsFrame (writing s) = true ∧
    NothingDue (begin 1000 (writing s)) ∧ (writing s).drv.holder = .controller := by decide +kernel
theorem witness_SetGeometrySets : acceptsFrame (writing passive) = true ∧ (writing passive).map.entries = [] ∧
    acceptsFrame (writing (mapped ⟨0, 0, 3⟩ (.settled .overlay 0 none 0) passive)) = true ∧
    (writing (mapped ⟨0, 0, 3⟩ (.settled .overlay 0 none 0) passive)).map.entries ≠ [] := by decide +kernel
theorem witness_SetParametersSets : acceptsFrame (writing base) = true ∧ NothingDue (begin 1000 (writing base)) ∧
    (begin 1000 (writing base)).drv.resting = false ∧ (begin 1000 (writing base)).drv.work < codeDuration 1 := by
  decide +kernel
theorem witness_LaddersAreSet : acceptsFrame (writing base) = true ∧
    ∀ k < 9, (base.tables.ladders.getD k Ladder.empty).rungs.length ≤ 16 := by decide +kernel
theorem witness_SetHeadSets : acceptsFrame (writing base) = true ∧ base.heads.length = 16 ∧
    base.heads[15]? = some HeadRecord.fresh := by decide +kernel
/-- PASSIVE mode with no geometry. -/
def bare : State := { passive with svc.geometry := none }
/-- A queue of 32 jobs. -/
def fullQueue (s : State) : State :=
  { s with seq.queue := (List.range 32).map fun k => jobAt ⟨2, k / 16, k % 16⟩ .background .waiting }
/-- The sweep of six tracks reads sector 1 of track `next`, with no stop ahead but track 5. -/
def sweeping (next : Nat) (pass : SweepPass) (s : State) : State :=
  { capturing .sweep ⟨next / 2, next % 2, 1⟩ true s with
    drv.holder := .sweep
    sweep := { Sweep.fresh with limit := 6, next := next, stop := 5, state := .sweeping, pass := pass } }
/-- The track is reached and INDEX awaited. -/
def awaitingIndex (s : State) : State := { sweeping 0 .awaitingIndex s with drv.capture := none, drv.readGate := false }
/-- A map of 1,024 entries, none of them on cylinder 0. -/
def fullElsewhere (s : State) : State :=
  { s with map.entries := (List.range 1024).map fun k =>
      ⟨⟨k / 32 + 1, k / 16 % 2, k % 16⟩, .controller, .settled .overlay 0 none k⟩ }
/-- Every sector of track 0 has an entry. -/
def mappedTrack (s : State) : State :=
  { s with map.entries := (List.range 4).map fun k => ⟨⟨0, 0, k⟩, .controller, .settled .overlay 0 none k⟩ }
/-- Head 1 is worn. -/
def wornHead (s : State) : State := { s with heads := s.heads.set 1 ⟨40, 40, true, 0, 0, 0⟩ }
/-- A retry of the sweep's positioning. -/
def sweepRetry (s : State) : State :=
  { sweeping 0 .reaching s with
    drv.capture := none
    drv.readGate := false
    drv.step := some ⟨.position 0, some .backTo, 0, 600000, false⟩
    drv.travel := some ⟨.sweep, 0, 0, .nominal, .centre, [.select], true, some [.select, .margin]⟩ }
theorem witness_SweepIsCommanded : ∀ s ∈ [base, passive, bare], acceptsFrame (writing s) = true ∧
    NothingDue (begin 1000 (writing s)) := by decide +kernel
theorem witness_SweepIsCommanded_tracks :
    (∀ s ∈ [base, fullElsewhere base, fullQueue base, mappedTrack base, wornHead base],
      ∀ x ∈ [sweeping 0 (.first 2) s, awaitingIndex s, sweepRetry s],
        x.drv.holder = .sweep ∧ x.sweep.state = .sweeping ∧ x.drv.passOn = .stays ∧ x.drv.episode = none ∧
        x.ctl.withhold = none ∧ restDue (begin 1000 x) = false ∧ x.svc.geometry = some ⟨3, 2, 4⟩ ∧
        (∀ j ∈ x.seq.queue, j.cls = .background) ∧ x.svc.mode ≠ .passive ∧ x.drv.condition = .turning) ∧
    base.heads[0]? = some HeadRecord.fresh ∧ HeadOk HeadRecord.fresh ∧
    nextTarget (sweeping 0 (.first 2) base) = some (2, .first 3) ∧
    nextTarget (sweeping 0 (.first 2) (mappedTrack base)) = none ∧
    nextTarget { sweeping 0 (.first 4) base with sweep.marked := [1] } = some (1, .second []) ∧
    entryOf (sweeping 0 (.first 2) base) ⟨0, 0, 1⟩ = none ∧ freeEntries (fullElsewhere base) = 0 ∧
    32 ≤ (fullQueue base).seq.queue.length ∧ 0 < freeEntries (fullQueue base) ∧
    isWorn (wornHead base) 1 = true ∧ isWorn (wornHead base) 0 = false ∧
    (sweepRetry base).drv.travel.map Travel.purpose = some .sweep := by unfold HeadOk; decide +kernel
/-- Sector 3 is LOST. -/
def lostThird : State := mapped ⟨0, 0, 3⟩ (.settled .lost 14 (some 9) 0) base
theorem witness_QueueSectorQueues :
    (∀ s ∈ [base, passive, fullQueue base, pendingThird, served, lostThird, fullQueue lostThird],
      acceptsFrame (writing s) = true ∧ NothingDue (begin 1000 (writing s)) ∧ s.svc.geometry = some ⟨3, 2, 4⟩) ∧
    entryStateCode base ⟨0, 0, 3⟩ = 0 ∧ 0 < freeEntries base ∧ (ladderOf base (chooseLadder base ⟨0, 0, 3⟩)).rungs ≠ [] ∧
    entryStateCode pendingThird ⟨0, 0, 3⟩ = 1 ∧ entryStateCode served ⟨0, 0, 3⟩ = 4 ∧
    entryStateCode lostThird ⟨0, 0, 3⟩ = 3 ∧ (fullQueue lostThird).seq.queue.length = 32 ∧
    jobOf base ⟨0, 0, 3⟩ = none ∧ jobOf lostThird ⟨0, 0, 3⟩ = none ∧ isWorn base 0 = false := by decide +kernel
theorem witness_ReleaseEntryReleases :
    (∀ s ∈ [base, bare, pendingThird, served], acceptsFrame (writing s) = true ∧ NothingDue (begin 1000 (writing s))) ∧
    entryOf base ⟨0, 0, 3⟩ = none ∧ (headJob pendingThird).map Job.addr ≠ some ⟨0, 0, 3⟩ ∧
    (entryOf pendingThird ⟨0, 0, 3⟩).isSome = true := by decide +kernel
/-- Pages 0 and 1 of a field are staged for sector 3. -/
def staged (f : Field) (s : State) : State :=
  { s with map.staging := some ⟨⟨0, 0, 3⟩, 2, (imageUnits f).take 112,
      packImage 12 (assemble 12 ((imageUnits f).take 56)) ++
        packImage 12 (assemble 12 (((imageUnits f).drop 56).take 56))⟩ }
/-- Page 2 of a field, in a body of 56 units. -/
def lastPage (f : Field) : List Nat := (imageUnits f).drop 112 ++ List.replicate 38 0
theorem witness_ImportPagesBuild :
    (∀ s ∈ [base, staged good base, staged bad base], acceptsFrame (writing s) = true ∧
      NothingDue (begin 1000 (writing s)) ∧ s.svc.geometry = some ⟨3, 2, 4⟩) ∧
    (lastPage good).length = base.straps.data - 8 ∧ (∀ u ∈ lastPage good, u < 4096) ∧
    passes 12 (unpackImage 12 65 ((staged good base).map.staging.elim [] Staging.image ++
      packImage 12 (assemble 12 ((lastPage good).take 18)))) = true ∧
    passes 12 (unpackImage 12 65 ((staged bad base).map.staging.elim [] Staging.image ++
      packImage 12 (assemble 12 ((lastPage bad).take 18)))) = false ∧
    entryOf base ⟨0, 0, 3⟩ = none ∧ base.map.claim = none ∧ 0 < freeEntries base ∧ 0 < freeSlots base := by
  decide +kernel
/-- A log that has gone round: 8 incidents held, the newest at position 2. -/
def roundLog : State :=
  { writing base with log := ⟨(List.range 8).map fun k => some ⟨.headWorn k, k, []⟩, 2, 8, 10⟩ }
theorem witness_TablesAreReported : acceptsFrame roundLog = true ∧ roundLog.log.held = 8 ∧
    roundLog.log.positions[1]? = some (some ⟨.headWorn 1, 1, []⟩) ∧
    roundLog.log.positions[2]? = some (some ⟨.headWorn 2, 2, []⟩) ∧
    ([] : List OrderRecord).length ≤ 4 := by decide +kernel
/-- 24 entries: more than one READ MAP frame of 14 holds. -/
def longMap : State :=
  { base with map.entries := (List.range 24).map fun k =>
      ⟨⟨k / 8, k / 4 % 2, k % 4⟩, .controller, .settled .overlay 0 none k⟩ }
theorem witness_MapAndQueueAreReported :
    (∀ s ∈ [bare, longMap, served, pendingThird, fullQueue base], acceptsFrame (writing s) = true) ∧
    ((longMap.map.entries.filter fun x => !x.addr.lt ⟨0, 0, 3⟩).take 14).getLast?.map Entry.addr = some ⟨2, 0, 0⟩ ∧
    (⟨3, 2, 4⟩ : Geometry).successor ⟨2, 0, 0⟩ = some ⟨2, 0, 1⟩ ∧
    (⟨3, 2, 4⟩ : Geometry).successor ⟨2, 1, 3⟩ = none ∧
    entryOf pendingThird ⟨0, 0, 3⟩ = some ⟨⟨0, 0, 3⟩, .controller, .pending⟩ := by decide +kernel
theorem witness_ClearLogClears : acceptsFrame roundLog = true ∧ roundLog.log.positions.length = 8 := by decide +kernel
theorem witness_ModesChange : ∀ s ∈ [base, passive, captive, bare, pendingThird],
    acceptsFrame (writing s) = true ∧ (writing s).ctl.cyl = serviceCylinder (writing s) ∧
      NothingDue (begin 1000 (writing s)) ∧ (writing s).drv.holder = .controller := by decide +kernel
/-- The party that holds the drive gives it up when its step has ended. -/
def leaving (s : State) : State := { s with drv.passOn := .toNobody, drv.travel := none }
theorem witness_ModesChange_holders :
    (∀ s ∈ [base, passive, captive, bare, leaving { rungStepping with svc.mode := .passive, seq.queue := [] }],
      acceptsFrame (commanded s) = true ∧ (commanded s).ctl.cyl = serviceCylinder (commanded s) ∧
      NothingDue (begin 1000 (commanded s)) ∧ s.drv.holder ≠ .controller ∧ s.seq.queue = [] ∧ s.sweep.state = .idle) ∧
    (∀ s ∈ [capturing .recovery ⟨2, 0, 3⟩ true { rungStepping with drv.step := none, drv.travel := none }, rungStepping,
        sweeping 0 (.first 2) base, sweepRetry base],
      acceptsFrame (commanded s) = true ∧ (commanded s).ctl.cyl = serviceCylinder (commanded s) ∧
      s.svc.mode ≠ .passive ∧ s.drv.holder.isDevice = true ∧ s.drv.passOn = .stays ∧ s.ctl.withhold = none ∧
      (s.drv.capture.all fun c => decide (c.party ≠ .live)) = true) := by decide +kernel

/-! ### Witnesses: the drive, the captures and the timers -/

/-- A live read whose capture takes in data. -/
def liveReading (s : State) : State :=
  capturing .live ⟨0, 0, 3⟩ true (held (during .liveRead ⟨0, 0, 3⟩ .transferring s))
theorem witness_LiveCapturesEnd :
    (∀ s ∈ [passive, base, lostThird, served, pendingThird], ControllerHas (begin 1000 (liveReading s)) ∧
      awaitsDrive (liveReading s) = false ∧ s.heads[0]? = some HeadRecord.fresh) ∧
    HeadOk HeadRecord.fresh ∧ passes 12 (takeField base.straps good) = true ∧
    passes 12 (takeField base.straps bad) = false ∧ entryOf base ⟨0, 0, 3⟩ = none ∧
    (entryOf lostThird ⟨0, 0, 3⟩).map (fun e => e.body.stateCode) = some 3 ∧ base.seq.queue = [] ∧
    (ladderOf base (chooseLadder base ⟨0, 0, 3⟩)).rungs ≠ [] ∧
    jobOf pendingThird ⟨0, 0, 3⟩ = some (jobAt ⟨0, 0, 3⟩ .background .waiting) ∧
    HeadRecord.fresh.threshold < min (HeadRecord.fresh.score + 1) 200 - min 0 15 := by unfold HeadOk; decide +kernel
/-- The first rung of the factory ladder (R86). -/
def firstRung : Rung := ⟨.nominal, .centre, 3, false, false, true, .cont⟩
/-- A job in its first rung after `n` reads, a recovery capture taking in data. -/
def reading (n : Nat) (copies : List Field) (rest : List Job) : State :=
  { capturing .recovery ⟨0, 0, 3⟩ true (mapped ⟨0, 0, 3⟩ .pending base) with
    seq := ⟨{ jobAt ⟨0, 0, 3⟩ .background .active with readsDone := n, readsSpent := n } :: rest, copies, none,
      some firstRung⟩
    drv.holder := .recovery }
theorem witness_RecoveryReadsEnd :
    (∀ s ∈ [reading 0 [] [jobAt ⟨0, 0, 1⟩ .background .waiting], reading 2 [bad, bad] [], reading 0 [] []],
      s.drv.step = none ∧ s.drv.travel = none ∧ s.drv.episode = none ∧ s.drv.passOn = .stays ∧
      s.ctl.withhold = none ∧ restDue (begin 1000 s) = false ∧ s.heads[0]? = some HeadRecord.fresh ∧
      s.eng.inFlight = none) ∧
    0 + 1 < firstRung.reads ∧ 0 + 1 < (base.tables.ladders.getD 0 Ladder.empty).budget ∧ 2 + 1 = firstRung.reads ∧
    firstRung.voteAfter = true ∧ HeadRecord.fresh.score - min (0 + 1) 15 > HeadRecord.fresh.threshold ∧
    entryOf (reading 0 [] []) ⟨0, 0, 3⟩ = some ⟨⟨0, 0, 3⟩, .controller, .pending⟩ := by decide +kernel
theorem witness_RecoveryReadsEnd_waiting :
    ({ reading 2 [bad, bad] [] with
      eng.inFlight := some { voteOf agreed with discard := true } } : State).eng.inFlight.map Vote.discard = some true := by
  decide +kernel
theorem witness_MarksArrive :
    (capturing .sweep ⟨0, 0, 3⟩ false base).drv.capture = some ⟨.sweep, ⟨0, 0, 3⟩, false, 0⟩ ∧
    (capturing .live ⟨0, 0, 3⟩ false (during .liveRead ⟨0, 0, 3⟩ .awaitingMatch base)).drv.capture =
      some ⟨.live, ⟨0, 0, 3⟩, false, 0⟩ ∧
    (during .liveWrite ⟨0, 0, 3⟩ .awaitingMatch passive).drv.capture = none ∧
    (beginServed .serviceRead ⟨1020, 0, 1⟩ (onV base)).ctl.op.bind Op.matchDue = some 1000 ∧
    (lost base).drv.genNext = some 25000 ∧
    relayedReadLines true true (during .liveRead ⟨0, 0, 3⟩ .transferring (held base)) = (true, true) ∧
    relayedReadLines true true { during .liveRead ⟨0, 0, 3⟩ .transferring base with drv.holder := .recovery } =
      (false, false) := by decide +kernel
/-- A LOST drive that has shown READY and one INDEX. -/
def spinningUp (s : State) : State := { lost s with drv.lines.ready := true, drv.indexCount := 1 }
theorem witness_DriveLinesAreSeen :
    (∀ s ∈ [base, passive, lost base, spinningUp base, { spinningUp base with drv.indexCount := 0 }],
      NothingDue (begin 1000 s) ∧ s.drv.capture = none ∧ s.sweep.pass ≠ .awaitingIndex ∧
      s.drv.holder.isDevice = false ∧ s.drv.episode = none) ∧
    DeviceIdle (spinningUp base) ∧ (spinningUp base).drv.clearArmed = true := by decide +kernel
theorem witness_DriveLinesAreSeen_shown :
    ({ passive with drv.lines.protect := true } : State).svc.mode = .passive ∧ (lost base).drv.condition = .lost ∧
    (∀ s ∈ [base, captive, fullMap base, lastSlot base], s.svc.mode ≠ .passive) ∧
    freeSlots (fullMap base) = 0 ∧ freeEntries (lastSlot base) = 0 ∧ freeEntries base ≠ 0 := by decide +kernel
/-- A fault episode with nothing in flight. -/
def inEpisode (failed : Option Move) (s : State) : State :=
  { s with drv.episode := some ⟨0, failed⟩, drv.lines.fault := true, drv.capture := none, drv.readGate := false,
           drv.step := none }
theorem witness_DriveLinesAreSeen_episodes :
    (∀ s ∈ [reading 1 [bad] [], rungStepping, sweeping 0 (.first 2) base, awaitingIndex base],
      s.drv.holder.isDevice = true ∧ s.drv.passOn = .stays ∧ s.drv.episode = none ∧ s.drv.condition = .turning ∧
      s.ctl.withhold = none ∧ restDue (begin 1000 s) = false ∧ (s.drv.holder = .recovery ∨ s.seq.queue = []) ∧
      (s.drv.capture.all fun c => decide (c.party ≠ .live)) = true ∧
      (inEpisode none s).drv.lines.positionError = false ∧ restDue (begin 1000 (inEpisode none s)) = false) ∧
    (inEpisode none (reading 1 [bad] [])).drv.travel = none ∧
    (reading 1 [bad] []).seq.queue.map (fun j => (j.state, j.readsDone, j.readsSpent)) = [(.active, 1, 1)] ∧
    1 < firstRung.reads ∧ 1 < (base.tables.ladders.getD 0 Ladder.empty).budget ∧
    (inEpisode none (sweeping 0 (.first 2) base)).drv.record =
      ⟨some (sweepAddr base 0).cyl, some (sweepAddr base 0).head, some .nominal, some .centre⟩ ∧
    (inEpisode (some .reach) rungStepping).drv.travel.map Travel.retry = some none := by decide +kernel

/-- A withheld read whose job has the drive. -/
def withheldRead (s : State) : State :=
  { during .withheld ⟨0, 0, 3⟩ .awaitingMatch s with
    ctl.withhold := some ⟨⟨0, 0, 3⟩, 0, 400, false⟩, drv.lastIndex := some 500, drv.period := some 25000 }
theorem witness_DriveIsJudgedLost :
    (∀ s ∈ [withheldRead (reading 1 [bad] []), { base with drv.lastIndex := some 500, drv.period := some 25000 },
        { capturing .live ⟨0, 0, 3⟩ true (during .liveRead ⟨0, 0, 3⟩ .transferring (held base)) with
          drv.lastIndex := some 500, drv.period := some 25000 }],
      s.drv.condition = .turning ∧ s.svc.mode ≠ .passive ∧ restDue (begin 1000 s) = false ∧
      restDue (beginAt (500 + 3 * 25000) s) = false ∧ s.drv.lastIndex = some 500 ∧ s.drv.period = some 25000 ∧
      (s.ctl.withhold.isSome = true → s.ctl.op.map Op.kind = some .withheld)) ∧
    restDue (beginAt (0 + 50000) { reading 1 [bad] [] with
      drv.episode := some ⟨0, none⟩, drv.lines.fault := true }) = false := by decide +kernel
/-- A step in flight for the controller in PASSIVE mode. -/
def stepping (o : Order) (unknown : Bool) : State :=
  { held passive with drv.step := some ⟨o, none, 0, 600000, unknown⟩ }
theorem witness_StepsEnd :
    (∀ s ∈ [stepping (.position 2) false, stepping .ret false, stepping (.margin .late .outward) true],
      s.svc.mode = .passive ∧ s.ctl.cyl ≠ serviceCylinder s ∧ s.ctl.op = none ∧ s.ctl.withhold = none ∧
      s.drv.travel = none ∧ s.drv.capture = none ∧ s.drv.episode = none ∧ s.drv.heldOrders = [] ∧
      s.drv.passOn = .stays ∧ s.drv.holder = .controller ∧ restDue (begin 1000 s) = false ∧
      restDue (beginAt 600000 s) = false ∧ restDue (beginAt 10000 s) = false ∧ s.drv.lines.onCylinder = true) ∧
    rungStepping.drv.travel.map Travel.retry = some none ∧ rungStepping.drv.travel.map Travel.stepped = some true ∧
    rungStepping.drv.holder = .recovery ∧ rungStepping.drv.capture = none ∧ rungStepping.drv.passOn = .stays ∧
    restDue (begin 1000 rungStepping) = false := by decide +kernel
/-- The sweep's step in flight. -/
def sweepStepping : State :=
  { awaitingIndex base with
    sweep.pass := .reaching
    drv.step := some ⟨.position 0, some .reach, 0, 600000, false⟩
    drv.travel := some ⟨.sweep, 0, 0, .nominal, .centre, [.select, .margin], true, none⟩ }
/-- The same holder's offset settle, the last of its positioning. -/
def settling (s : State) : State :=
  { s with
    drv.record.offset := none
    drv.step := some ⟨.margin .nominal .centre, some .margin, 0, 600000, false⟩
    drv.travel := s.drv.travel.map fun t => { t with moves := [] } }
theorem witness_StepsEnd_party :
    (∀ s ∈ [rungStepping, sweepStepping, settling rungStepping, settling sweepStepping,
        { rungStepping with drv.record.offset := some .inward }],
      s.drv.step.isSome = true ∧ s.drv.travel.map Travel.retry = some none ∧ s.drv.passOn = .stays ∧
      s.drv.capture = none ∧ s.drv.episode = none ∧ s.ctl.withhold = none ∧ restDue (begin 1000 s) = false ∧
      sweepYields s = false ∧ s.drv.lines.positionError = false) ∧
    headJob rungStepping = some (jobAt ⟨2, 0, 3⟩ .background .active) ∧ rungStepping.drv.record.offset = some .centre ∧
    (jobAt ⟨2, 0, 3⟩ .background .active).readsSpent <
      effectiveBudget (isWorn rungStepping 0) (ladderOf rungStepping 0).budget ∧
    sweepStepping.sweep.state = .sweeping ∧ sweepStepping.drv.holder = .sweep ∧
    sweepStepping.drv.travel.map Travel.purpose = some .sweep := by decide +kernel
/-- The controller's live read waits for the end of a job's step. -/
def takenStepping : State :=
  { during .liveRead ⟨0, 0, 1⟩ .awaitingDrive rungStepping with drv.passOn := .toController, drv.travel := none }
/-- A re-seat's step in flight, of a live read or of a withheld one. -/
def reseating (kind : OpKind) (p : Purpose) (w : Option Withhold) : State :=
  { held (during kind ⟨0, 0, 3⟩ .awaitingDrive base) with
    ctl.withhold := w
    drv.step := some ⟨.position 0, some .reach, 0, 600000, false⟩
    drv.travel := some ⟨p, 0, 0, .nominal, .centre, [.select, .margin], true, none⟩ }
theorem witness_StepsEnd_controller :
    (takenStepping.drv.holder.isDevice = true ∧ takenStepping.drv.capture = none ∧ takenStepping.drv.episode = none ∧
      takenStepping.drv.heldOrders = [] ∧ takenStepping.ctl.withhold = none ∧
      takenStepping.ctl.op = some (newOp .liveRead ⟨0, 0, 1⟩ .awaitingDrive) ∧
      restDue (begin 1000 takenStepping) = false ∧ restDue (beginAt 600000 takenStepping) = false ∧
      takenStepping.ctl.cyl ≠ 2 ∧ { takenStepping with drv.record.cyl := none }.drv.record.cyl ≠ some 0) ∧
    (∀ s ∈ [reseating .liveRead .reseatLive none,
        reseating .withheld .reseatWithhold (some ⟨⟨0, 0, 3⟩, 0, 400, false⟩)],
      s.drv.passOn = .stays ∧ s.drv.holder = .controller ∧ s.drv.capture = none ∧ s.drv.episode = none ∧
      s.drv.heldOrders = [] ∧ restDue (begin 1000 s) = false ∧ restDue (beginAt 600000 s) = false) := by
  decide +kernel
theorem witness_StepsEnd_freed : ∀ s ∈ [leaving { rungStepping with svc.mode := .passive },
      leaving { sweepStepping with sweep.state := .idle }, leaving (reseating .liveRead .reseatLive none)],
    (s.drv.step.bind Step.move).isSome = true ∧ s.drv.passOn = .toNobody ∧ s.ctl.withhold = none ∧ DeviceIdle s ∧
    restDue (begin 1000 s) = false ∧ restDue (beginAt 600000 s) = false := by decide +kernel
/-- A rest under way. -/
def resting : State := { limited base with drv.resting := true, drv.work := 5000000 }
theorem witness_TimersExpire :
    ({ base with ctl.settleDue := some 1000 } : State).ctl.settleDue = some 1000 ∧
    (DriveFree (beginAt 200000 { held base with drv.quietDue := some 200000 }) ∧ DeviceIdle (held base)) ∧
    ((limited base).svc.params.workCode ≠ 0 ∧ (limited base).svc.params.restCode ≠ 0 ∧
      (limited base).drv.resting = false ∧ (limited base).drv.holder.isDevice = false) ∧
    ((limited (reading 1 [] [])).drv.resting = false ∧ (limited (reading 1 [] [])).drv.holder = .recovery ∧
      (limited (reading 1 [] [])).svc.mode ≠ .passive ∧ (limited (reading 1 [] [])).drv.capture.isSome = true) ∧
    (resting.drv.resting = true ∧ DeviceIdle resting ∧ Unoccupied resting) := by decide +kernel
/-- The controller's quiet interval runs out while a job of the first rung waits on another cylinder. -/
def quietJob (s : State) : State :=
  { queuedAt ⟨2, 0, 3⟩ .background .waiting (held s) with drv.quietDue := some 200000 }
/-- The controller's quiet interval runs out while the sweep waits at a track, with only track 5 to stop at. -/
def quietSweep (next stop : Nat) (s : State) : State :=
  { held s with
    drv.quietDue := some 200000
    sweep := { Sweep.fresh with limit := 6, next := next, stop := stop, state := .waiting } }
theorem witness_TimersExpire_grants :
    (∀ s ∈ [quietJob base, quietJob { base with drv.lines.fault := true }, quietSweep 0 5 base, quietSweep 4 5 base,
        quietSweep 1 2 (wornHead base)],
      DriveFree (beginAt 200000 s) ∧ s.drv.holder = .controller ∧ s.svc.mode ≠ .passive ∧
      s.drv.condition = .turning ∧ s.drv.resting = false) ∧
    (base.tables.ladders.getD 0 Ladder.empty).rungs[0]? = some firstRung ∧ firstRung.restoreFirst = false ∧
    headMayRun (quietSweep 0 5 base) = false ∧ isWorn base 0 = false ∧ isWorn (wornHead base) 1 = true := by
  decide +kernel
/-- A withheld read whose job is VOTING at the head of the queue, holding the drive. -/
def withheldVote : State :=
  { withheldRead (queuedAt ⟨0, 0, 3⟩ .foreground .voting (mapped ⟨0, 0, 0⟩ (.settled .overlay 0 none 0) base)) with
    drv.holder := .recovery }
theorem witness_WithholdLimitPasses :
    (NothingDue (beginAt 400000 (withheldRead (reading 1 [] []))) ∧
      (withheldRead (reading 1 [] [])).drv.capture.isSome = true) ∧
    (withheldVote.ctl.withhold = some ⟨⟨0, 0, 3⟩, 0, 400, false⟩ ∧ withheldVote.clock ≤ 0 + 400 * 1000 ∧
      withheldVote.svc.mode = .active ∧ withheldVote.sweep.state ≠ .sweeping ∧
      withheldVote.drv.condition = .turning ∧ withheldVote.drv.resting = false ∧
      restDue (beginAt 400000 withheldVote) = false ∧ withheldVote.drv.capture = none ∧
      jobOf withheldVote ⟨0, 0, 3⟩ = some (jobAt ⟨0, 0, 3⟩ .foreground .voting) ∧
      (withheldVote.seq.queue.map Job.addr).Nodup) := by decide +kernel
/-- The one job VOTING on inputs, the drive held by nobody. -/
def voting (inp : VoteInputs) : State :=
  { queuedAt ⟨0, 0, 3⟩ .background .voting base with
    eng.inFlight := some (startVote Straps.chosen ⟨0, 0, 3⟩ inp false)
    seq.copies := inp.copies
    seq.workingRung := some firstRung }
/-- The same with the drive LOST. -/
def votingLost : State := lost (voting twoPasses)
theorem witness_VotesComplete :
    (∀ s ∈ [voting agreed, voting twoWrong, votingLost], s.eng.waiting = none ∧
      s.seq.queue = [jobAt ⟨0, 0, 3⟩ .background .voting] ∧
      entryOf s ⟨0, 0, 3⟩ = some ⟨⟨0, 0, 3⟩, .controller, .pending⟩ ∧ s.map.claim = none ∧ s.ctl.withhold = none ∧
      s.sweep.state = .idle ∧ s.drv.holder = .nobody ∧ NothingDue (begin 1000 s) ∧
      s.heads[0]? = some HeadRecord.fresh) ∧
    HeadRecord.fresh.threshold < HeadRecord.fresh.score - 19 ∧ firstRung.onFailure = .cont ∧
    voteEnd Straps.chosen (startVote Straps.chosen ⟨0, 0, 3⟩ agreed false) = .acceptedVote ∧
    voteEnd Straps.chosen (startVote Straps.chosen ⟨0, 0, 3⟩ twoPasses false) = .ambiguous ∧
    votingLost.drv.condition = .lost ∧ (base.tables.ladders.getD 0 Ladder.empty).rungs.length > 0 + 1 := by
  decide +kernel

/-- The vote in flight of an earlier head, marked, and the vote of sector 3 that waits behind it. -/
def votesInLine (marked : Bool) : State :=
  { voting twoWrong with eng := ⟨some { startVote Straps.chosen ⟨0, 0, 1⟩ agreed false with discard := true },
      some ⟨⟨0, 0, 3⟩, twoWrong, marked⟩⟩ }
theorem witness_VotesComplete_waiting : ∀ marked : Bool,
    (votesInLine marked).eng.inFlight.map Vote.discard = some true ∧ (votesInLine marked).eng.waiting.isSome = true := by
  decide +kernel

/-- A FOREGROUND job VOTING in vain while the sweep reads a track of another cylinder. -/
def votingUnderSweep : State :=
  { sweeping 0 (.first 2) (queuedAt ⟨2, 0, 3⟩ .foreground .voting base) with
    eng.inFlight := some (startVote Straps.chosen ⟨2, 0, 3⟩ twoPasses false)
    seq.workingRung := some firstRung }
theorem witness_VotesComplete_sweep :
    votingUnderSweep.drv.passOn = .stays ∧ restDue (begin 1000 votingUnderSweep) = false ∧
    votingUnderSweep.seq.queue = [jobAt ⟨2, 0, 3⟩ .foreground .voting] ∧
    (base.tables.ladders.getD 0 Ladder.empty).rungs[1]? = some ⟨.early, .centre, 2, false, false, true, .cont⟩ ∧
    votingUnderSweep.drv.record.cyl ≠ some 2 ∧ votingUnderSweep.drv.condition = .turning ∧
    votingUnderSweep.eng.waiting = none := by decide +kernel

/-! ### Witnesses: ends of operations, of withholdings and of jobs -/

/-- The withholding of a sector since power-up. -/
def hold (a : Addr) (s : State) : State := { s with ctl.withhold := some ⟨a, 0, 400, false⟩ }
/-- A live read in transfer, its capture taking in data. -/
def liveTransfer : State := held (capturing .live ⟨0, 0, 3⟩ true (during .liveRead ⟨0, 0, 3⟩ .transferring base))
/-- A withheld read whose job holds the drive with a step in flight, alone or before another job. -/
def withheldStep (rest : List Job) : State :=
  hold ⟨2, 0, 3⟩ (during .withheld ⟨2, 0, 3⟩ .awaitingMatch
    { rungStepping with seq.queue := rungStepping.seq.queue ++ rest })
/-- A withheld read whose re-seat is in flight. -/
def withheldReseat (x : JobState) (rest : List Job) : State :=
  { queuedAt ⟨0, 0, 3⟩ .foreground x
      (reseating .withheld .reseatWithhold (some ⟨⟨0, 0, 3⟩, 0, 400, false⟩)) with
    seq.queue := jobAt ⟨0, 0, 3⟩ .foreground x :: rest }
theorem witness_PositionMovesTheView_ends :
    (∀ s ∈ [during .servedRead ⟨0, 0, 3⟩ .transferring served, during .serviceRead ⟨1020, 0, 1⟩ .transferring (onV base),
        claiming true (some 0) base, writing base],
      s.ctl.op.isSome = true ∧ s.ctl.withhold = none ∧ NothingDue (begin 1000 s)) ∧
    (∀ s ∈ [liveTransfer, reseating .liveRead .reseatLive none, held (during .liveWrite ⟨0, 0, 3⟩ .transferring passive)],
      s.ctl.op.isSome = true ∧ s.ctl.withhold = none ∧ s.drv.holder = .controller ∧ s.drv.passOn = .stays ∧
      s.drv.heldOrders = [] ∧ s.drv.episode = none ∧ restDue (begin 1000 s) = false ∧
      (s.drv.capture.all fun c => decide (c.party = .live)) = true ∧
      (s.drv.travel.all fun t => decide (t.purpose = .reseatLive)) = true) ∧
    (∀ s ∈ [withheldStep [], withheldStep [jobAt ⟨0, 0, 1⟩ .background .waiting], withheldReseat .waiting [],
        withheldReseat .waiting [jobAt ⟨0, 0, 1⟩ .background .waiting], withheldRead (reading 1 [bad] [])],
      s.ctl.op.map Op.kind = some .withheld ∧ s.ctl.withhold.map Withhold.addr = (headJob s).map Job.addr ∧
      s.drv.passOn = .stays ∧ restDue (begin 1000 s) = false ∧ s.drv.heldOrders = [] ∧
      (s.drv.step.isSome = true ∨ s.drv.capture = some ⟨.recovery, ⟨0, 0, 3⟩, true, 0⟩)) ∧
    (ladderOf base 0).rungs[0]? = some firstRung ∧ firstRung.restoreFirst = false ∧ firstRung.resetCopies = false ∧
    1 < firstRung.reads ∧ 1 < effectiveBudget (isWorn base 0) (ladderOf base 0).budget := by decide +kernel
/-- Sector 3 is RECOVERED. -/
def recoveredThird : State := mapped ⟨0, 0, 3⟩ (.settled (.recovered .vote) 5 (some 2) 0) base
theorem witness_ImportPagesBuild_entries :
    (∀ s ∈ [bare, staged good (fullElsewhere base), staged good served, staged good lostThird, staged good recoveredThird,
        staged good pendingThird, staged good pendingHead],
      acceptsFrame (writing s) = true ∧ NothingDue (begin 1000 (writing s))) ∧
    bare.svc.geometry = none ∧ freeEntries (fullElsewhere base) = 0 ∧ entryOf (fullElsewhere base) ⟨0, 0, 3⟩ = none ∧
    entryStateCode served ⟨0, 0, 3⟩ = 4 ∧ entryStateCode lostThird ⟨0, 0, 3⟩ = 3 ∧
    entryStateCode recoveredThird ⟨0, 0, 3⟩ = 2 ∧ (jobOf pendingThird ⟨0, 0, 3⟩).isSome = true ∧
    (headJob pendingThird).map Job.addr ≠ some ⟨0, 0, 3⟩ ∧ (headJob pendingHead).map Job.addr = some ⟨0, 0, 3⟩ ∧
    pendingHead.drv.holder = .controller ∧ pendingThird.sweep.state ≠ .blocked := by decide +kernel
/-- The last read of a rung without a vote, with a failure action, the drive at another strobe. -/
def lastRead (act : OnFailure) (strobe : Strobe) (copies : List Field) : State :=
  { reading 2 copies [] with
    seq.workingRung := some { firstRung with voteAfter := false, onFailure := act }
    drv.record := ⟨some 0, some 0, some strobe, some .centre⟩ }
/-- The last read that the budget allows. -/
def lastCharge (copies : List Field) : State :=
  { reading 0 copies [] with
    seq.queue := [{ jobAt ⟨0, 0, 3⟩ .background .active with readsSpent := (ladderOf base 0).budget - 1 }] }
theorem witness_RecoveryReadsEnd_lost :
    (∀ s ∈ [lastRead .cont .early [], lastRead .skip .late [], lastRead .stop .nominal [bad], lastCharge [],
        lastCharge [bad], withheldRead (reading 0 [] [])],
      restDue (begin 1000 s) = false ∧ s.eng.inFlight = none ∧ s.heads[0]? = some HeadRecord.fresh ∧
      entryOf s ⟨0, 0, 3⟩ = some ⟨⟨0, 0, 3⟩, .controller, .pending⟩ ∧ s.map.claim = none ∧ s.sweep.state = .idle) ∧
    (ladderOf base 0).rungs[1]? = some ⟨.early, .centre, 2, false, false, true, .cont⟩ ∧
    (ladderOf base 0).rungs[2]? = some ⟨.late, .centre, 2, false, false, true, .cont⟩ ∧
    (ladderOf base 0).budget ≤ (ladderOf base 0).budget - 1 + 1 ∧ 0 + 1 < firstRung.reads ∧
    (withheldRead (reading 0 [] [])).ctl.withhold = some ⟨⟨0, 0, 3⟩, 0, 400, false⟩ := by decide +kernel
/-- A job VOTING in its first rung with a failure action, free of the drive or holding it for a withheld read. -/
def votingEnd (inp : VoteInputs) (act : OnFailure) (index : Nat) (withheld : Bool) : State :=
  let s := { voting inp with
    seq.queue := [{ jobAt ⟨0, 0, 3⟩ .background .voting with rungIndex := index }]
    seq.workingRung := some { firstRung with onFailure := act } }
  if withheld then { hold ⟨0, 0, 3⟩ (during .withheld ⟨0, 0, 3⟩ .awaitingMatch s) with drv.holder := .recovery } else s
theorem witness_VotesComplete_ends :
    (∀ s ∈ [votingEnd twoPasses .stop 0 false, votingEnd twoPasses .cont 16 false],
      s.ctl.withhold = none ∧ s.drv.holder = .nobody ∧ NothingDue (begin 1000 s) ∧ s.sweep.state = .idle) ∧
    (∀ s ∈ [votingEnd twoPasses .stop 0 true, votingEnd agreed .cont 0 true],
      s.ctl.withhold = some ⟨⟨0, 0, 3⟩, 0, 400, false⟩ ∧ s.drv.holder = .recovery ∧ s.drv.passOn = .stays ∧
      s.drv.step = none ∧ s.drv.capture = none ∧ s.drv.travel = none ∧ s.drv.episode = none ∧ s.drv.heldOrders = [] ∧
      restDue (begin 1000 s) = false ∧ s.drv.condition = .turning ∧ AtView s ∧ s.sweep.state = .idle) ∧
    (ladderOf base 0).rungs.length ≤ 16 + 1 ∧ HeadRecord.fresh.threshold < HeadRecord.fresh.score - 19 := by
  decide +kernel
/-- A retry's step in flight, its job after `n` position failures. -/
def retried (n : Nat) (rest : List Job) : State :=
  { rungStepping with
    seq.queue := { jobAt ⟨2, 0, 3⟩ .background .active with positionFailures := n } :: rest
    drv.record.cyl := none
    drv.travel := some ⟨.rung, 2, 0, .nominal, .centre, [.select], true, some [.select, .margin]⟩ }
theorem witness_StepsEnd_reseat :
    (∀ s ∈ [reseating .liveRead .reseatLive none, reseating .liveWrite .reseatLive none,
        settling (reseating .liveRead .reseatLive none),
        { reseating .liveRead .reseatLive none with drv.record.offset := some .inward }],
      s.drv.holder = .controller ∧ s.drv.heldOrders = [] ∧ s.ctl.withhold = none ∧ s.drv.capture = none ∧
      restDue (begin 1000 s) = false ∧ s.drv.travel.map Travel.purpose = some .reseatLive) ∧
    (∀ s ∈ [settling (withheldReseat .voting []),
        settling (withheldReseat .waiting [jobAt ⟨0, 0, 1⟩ .background .waiting])],
      s.drv.holder = .controller ∧ s.drv.travel.map Travel.moves = some [] ∧ s.drv.resting = false ∧
      s.drv.lines.fault = false ∧ restDue (begin 1000 s) = false ∧
      s.drv.record = ⟨some 0, some 0, some .nominal, none⟩ ∧
      s.drv.step.map Step.order = some (.margin .nominal .centre)) := by decide +kernel
theorem witness_StepsEnd_failures :
    (∀ s ∈ [retried 0 [], retried 0 [jobAt ⟨0, 0, 1⟩ .background .waiting], retried 1 [],
        hold ⟨2, 0, 3⟩ (during .withheld ⟨2, 0, 3⟩ .awaitingMatch (retried 0 []))],
      (s.drv.travel.any fun t => t.retry.isSome) = true ∧ s.drv.holder = .recovery ∧ s.drv.passOn = .stays ∧
      s.drv.capture = none ∧ s.drv.episode = none ∧ restDue (begin 1000 s) = false ∧ s.drv.condition = .turning ∧
      s.svc.mode ≠ .passive ∧ s.drv.resting = false ∧ s.drv.lines.fault = false ∧
      (headJob s).map Job.state = some .active ∧ s.sweep.state = .idle) ∧
    entryOf (retried 1 []) ⟨2, 0, 3⟩ = some ⟨⟨2, 0, 3⟩, .controller, .pending⟩ ∧
    (retried 1 []).heads[0]? = some HeadRecord.fresh ∧
    (retried 0 []).drv.record.cyl ≠ some (retried 0 []).ctl.cyl := by decide +kernel
/-- A withheld read whose job VOTES, the work duration about to be reached. -/
def withheldWork : State := limited (votingEnd twoPasses .cont 0 true)
theorem witness_TimersExpire_withheld :
    withheldWork.svc.params.workCode ≠ 0 ∧ withheldWork.svc.params.restCode ≠ 0 ∧ withheldWork.drv.resting = false ∧
    withheldWork.drv.holder = .recovery ∧ withheldWork.svc.mode ≠ .passive ∧ AtView withheldWork ∧
    withheldWork.ctl.withhold = some ⟨⟨0, 0, 3⟩, 0, 400, false⟩ ∧ withheldWork.drv.condition = .turning ∧
    withheldWork.seq.queue.map Job.addr = [⟨0, 0, 3⟩] ∧ withheldWork.drv.capture = none ∧
    withheldWork.drv.travel = none := by decide +kernel

/-! ### What commands do: expected results from the rules named -/

/-- R12: 65 words are taken in, later ones ignored. -/
theorem test_takeField : takeField Straps.chosen (good ++ [1, 2]) = good := by decide +kernel
/-- R19: POSITION to a real cylinder in ACTIVE mode settles for 1 ms. -/
theorem test_position : leaves (.position 10 2) base (fun t => t.ctl.cyl = 2 ∧ t.ctl.shownOnCylinder = false ∧
    t.ctl.settleDue = some 1010) = true := by decide +kernel
/-- R19: POSITION to cylinder 3 of 3, which is not real, shows POSITION ERROR. -/
theorem test_position_unreal : leaves (.position 10 3) base (fun t => t.ctl.shownPositionError = true ∧
    t.ctl.shownOnCylinder = false ∧ t.ctl.settleDue = none) = true := by decide +kernel
/-- R20: RETURN in PASSIVE mode is relayed. -/
theorem test_return : leaves (.returnOrder 10) passive (fun t => t.out = [.order .ret] ∧ t.drv.record.cyl = none) = true :=
  by decide +kernel
/-- R23, R20: after a refused seek CLEAR leaves shown ON CYLINDER false. -/
theorem test_clear : leaves (.clear 10) (after (.position 10 3) base)
    (fun t => t.ctl.shownPositionError = false ∧ t.ctl.shownOnCylinder = false ∧ t.out = []) = true := by decide +kernel
/-- POSITION ERROR is shown after a failed positioning on a real cylinder, and not cleared. -/
def refused (s : State) : State :=
  { s with ctl.shownOnCylinder := false, ctl.shownPositionError := true, ctl.seekFailed := true }
/-- R21: before any CLEAR a MARGIN that changes the offset starts its view settle; R23: after one it does not. -/
theorem test_margin_after_failure :
    leaves (.margin 10 .nominal .outward) (refused base) (fun t => t.ctl.settleDue = some 1010) = true ∧
    leaves (.margin 10 .nominal .outward) (after (.clear 10) (refused base)) (fun t => t.ctl.settleDue = none) = true := by
  decide +kernel
/-- R20: a relayed MARGIN that settles before any CLEAR shows ON CYLINDER; R23: one that settles after it does not. -/
theorem test_relayed_margin_after_failure :
    leaves (.positioningStepCompletes 10) (after (.margin 10 .nominal .outward) (refused passive))
      (fun t => t.ctl.shownOnCylinder) = true ∧
    leaves (.positioningStepCompletes 10)
      (after (.margin 10 .nominal .outward) { refused passive with ctl.shownPositionError := false, ctl.errorCleared := true })
      (fun t => t.ctl.shownOnCylinder) = false := by decide +kernel
/-- R20, R121: of 70 HEAD orders held behind a relayed RETURN none waits for a later command. -/
theorem test_held_heads : leaves (.positioningStepCompletes 10)
    { after (.returnOrder 10) passive with drv.heldOrders := List.replicate 70 (.head 1) }
    (fun t => t.drv.heldOrders = [] ∧ t.out.length = 70) = true := by decide +kernel
/-- R28, R29: an OVERLAY sector is served 1 ms after its target. -/
theorem test_served_read : leaves (.targetRead 10 3) served
    (fun t => t.ctl.op.bind Op.matchDue = some 1010 ∧ t.out = []) = true := by decide +kernel
/-- R41: a served write to an unmapped sector claims an entry and slot 0. -/
theorem test_claim : leaves (.writeGate 10) (during .servedWrite ⟨0, 0, 3⟩ .awaitingGate base)
    (fun t => t.map.claim = some ⟨⟨0, 0, 3⟩, true, some 0⟩ ∧ freeSlots t = 1023) = true := by decide +kernel
/-- R49: a failing field is stored as written. -/
theorem test_overlay : leaves (.writeFieldFull 10 bad) (claiming true (some 0) base)
    (fun t => readSlot t 0 = bad ∧ t.map.entries = [⟨⟨0, 0, 3⟩, .controller, .settled .overlay 0 none 0⟩]) = true := by
  decide +kernel
/-- R186: ACTIVATE without a geometry is refused STATE. -/
theorem test_activate_bare : leaves (.activate 10 5) (writing bare)
    (fun t => t.svc.mode = .passive ∧ t.svc.heldResponse.take 3 = [0x3AC, 5, 2]) = true := by decide +kernel
/-- R179: a service command outside a command write changes nothing. -/
theorem test_activate_nowhere : leaves (.activate 10 5) passive (fun t => t.svc = passive.svc) = true := by decide +kernel
/-- R96: the budget of a worn head is halved, and never below 1. -/
theorem test_budget : effectiveBudget true 40 = 20 ∧ effectiveBudget true 1 = 1 ∧ effectiveBudget false 5 = 5 := by decide
/-- R94, chapter 5: a worn head's rung start goes from rung 3 of the factory ladder to rung 5. -/
theorem test_skip_worn : skipWorn true Ladder.factory.rungs 17 3 = 5 ∧ skipWorn false Ladder.factory.rungs 17 3 = 3 := by
  decide
/-- R154: the cursor wraps at the limit to the base, and stops at stop. -/
theorem test_cursor : (advanceCursor { Sweep.fresh with base := 2, limit := 5, next := 4, stop := 3 }).next = 2 ∧
    (advanceCursor { Sweep.fresh with base := 2, limit := 5, next := 4, stop := 2, state := .sweeping }).state = .done := by
  decide
/-- R5: the successor crosses to the next head and the next cylinder, and the last address has none. -/
theorem test_successor : (⟨3, 2, 4⟩ : Geometry).successor ⟨0, 0, 3⟩ = some ⟨0, 1, 0⟩ ∧
    (⟨3, 2, 4⟩ : Geometry).successor ⟨0, 1, 3⟩ = some ⟨1, 0, 0⟩ ∧
    (⟨3, 2, 4⟩ : Geometry).successor ⟨2, 1, 3⟩ = none := by decide
/-- R24, R42: the claim that takes the last free entry and slot raises PROTECT; in PASSIVE mode the line is the drive's. -/
theorem test_protect :
    leaves (.writeGate 10) (during .servedWrite ⟨40, 0, 0⟩ .awaitingGate (lastRoom base)) (fun t => shownProtect t) = true ∧
    leaves (.driveProtectChanges 10 false) (fullMap passive) (fun t => shownProtect t) = false := by decide +kernel
/-- R188, R134: PASSIVATE takes the drive from a recovery read at once, from a seeking job at the end of its step. -/
theorem test_passivate :
    leaves (.passivate 10 5) (commanded (reading 1 [] []))
      (fun t => t.drv.holder = .nobody ∧ t.drv.capture = none ∧ t.out = [.readGate false]) = true ∧
    leaves (.positioningStepFails 10) (after (.passivate 10 5) (commanded rungStepping))
      (fun t => t.drv.holder = .nobody ∧ t.drv.step = none ∧ t.out = []) = true := by decide +kernel
/-- R105: a waiting vote is computed when the one before it completes, and dropped if it is marked. -/
theorem test_waiting_vote :
    leaves (.voteCompletes 10) (votesInLine false)
      (fun t => t.eng.inFlight.map Vote.owner = some ⟨0, 0, 3⟩ ∧ t.eng.waiting = none) = true ∧
    leaves (.voteCompletes 10) (votesInLine true) (fun t => t.eng = ⟨none, none⟩) = true := by decide +kernel
/-- R12: the second INDEX without MATCH ends a capture SHORT; here a live one. -/
theorem test_second_index : leaves (.driveIndex 10)
    { held (during .liveRead ⟨0, 0, 3⟩ .awaitingMatch base) with
      drv.capture := some ⟨.live, ⟨0, 0, 3⟩, false, 1⟩ }
    (fun t => t.drv.capture = none) = true := by decide +kernel
/-- R65, R95, R97: the arbiter grants the head job the drive and its first read is made. -/
theorem test_grant : leaves .quietInterval
    { held (queuedAt ⟨0, 0, 3⟩ .background .waiting base) with drv.quietDue := some 500 }
    (fun t => t.drv.holder = .recovery ∧ t.out = [.order (.targetRead 3)] ∧ t.clock = 500) = true := by decide +kernel
/-- R149: the sweep is granted the drive, and with the drive on its track awaits INDEX. -/
theorem test_sweep_grant : leaves .quietInterval
    { held base with
      drv.quietDue := some 500
      sweep := { Sweep.fresh with limit := 6, stop := 5, state := .waiting } }
    (fun t => t.drv.holder = .sweep ∧ t.sweep.pass = .awaitingIndex) = true := by decide +kernel
/-- R125: FAULT under RECOVERY begins an episode with its one CLEAR, and the capture is abandoned. -/
theorem test_episode : leaves (.driveFaultRises 10) (reading 1 [] [])
    (fun t => t.drv.capture = none ∧ t.drv.episode = some ⟨10, none⟩ ∧
      t.out = [.readGate false, .order .clear]) = true := by decide +kernel
/-- R132, R69: the controller's target takes the drive from a recovery read at once. -/
theorem test_pre_empt : leaves (.targetRead 10 1) (reading 1 [] [])
    (fun t => t.drv.holder = .controller ∧ t.out = [.readGate false, .order (.targetRead 1)] ∧
      t.seq.queue.map Job.state = [.waiting]) = true := by decide +kernel

end Sys2Proof.Tests
end

section
/-!
PROOFS. The folded sum and the check (R8 to R11). The one idea: with every word below 2^B the folded sum is a function of
the plain sum alone, `residue b`, which is 0 for 0 and else the representative of the sum in 1 … 2^B − 1.
-/

namespace Sys2Proof.Machine

/-- What a plain sum folds to: 0 for 0, else its representative modulo 2^B − 1 in the range 1 … 2^B − 1. -/
def residue (b n : Nat) : Nat := if n = 0 then 0 else (n - 1) % (2 ^ b - 1) + 1

theorem two_pow_gt_one {b : Nat} (hb : 0 < b) : 1 < 2 ^ b := Nat.one_lt_two_pow hb.ne'

theorem residue_eq_zero {b n : Nat} : residue b n = 0 ↔ n = 0 := by
  unfold residue; split <;> simp [*]

theorem residue_le {b : Nat} (hb : 0 < b) (n : Nat) : residue b n ≤ 2 ^ b - 1 := by
  have := two_pow_gt_one hb
  unfold residue
  split
  · exact Nat.zero_le _
  · exact Nat.mod_lt _ (by omega)

theorem residue_of_le {b n : Nat} (h : n ≤ 2 ^ b - 1) : residue b n = n := by
  unfold residue
  split
  · omega
  · rw [Nat.mod_eq_of_lt (by omega)]; omega

theorem residue_mod (b n : Nat) : residue b n % (2 ^ b - 1) = n % (2 ^ b - 1) := by
  unfold residue
  split
  · simp [*]
  · rw [Nat.mod_add_mod, Nat.sub_add_cancel (by omega)]

theorem residue_eq_top {b n : Nat} (hb : 0 < b) :
    residue b n = 2 ^ b - 1 ↔ 0 < n ∧ n % (2 ^ b - 1) = 0 := by
  have hm := two_pow_gt_one hb
  have hle := residue_le hb n
  have hmod := residue_mod b n
  have hzero := residue_eq_zero (b := b) (n := n)
  constructor
  · intro h
    rw [h, Nat.mod_self] at hmod
    exact ⟨by omega, hmod.symm⟩
  · rintro ⟨hn, hd⟩
    rcases Nat.lt_or_ge (residue b n) (2 ^ b - 1) with hlt | hge
    · rw [Nat.mod_eq_of_lt hlt] at hmod
      omega
    · omega

/-- One addition with its fold moves from the residue of a sum to the residue of the next (R8). -/
theorem foldAdd_residue {b w : Nat} (hb : 0 < b) (hw : w < 2 ^ b) (n : Nat) :
    foldAdd b (residue b n) w = residue b (n + w) := by
  have hm := two_pow_gt_one hb
  have hle := residue_le hb n
  have hzero := residue_eq_zero (b := b) (n := n)
  have same : residue b (residue b n + w) = residue b (n + w) := by
    rcases Nat.eq_zero_or_pos (residue b n) with h0 | hpos
    · rw [h0, hzero.1 h0]
    · have hn : 0 < n := by omega
      unfold residue at hpos ⊢
      simp only [hn.ne', ↓reduceIte, Nat.add_eq_zero_iff, false_and, Nat.succ_ne_zero]
      congr 1
      rw [show (n - 1) % (2 ^ b - 1) + 1 + w - 1 = (n - 1) % (2 ^ b - 1) + w by omega, Nat.mod_add_mod]
      congr 1
      omega
  rw [← same]
  generalize residue b n = r at hle
  unfold foldAdd
  split
  · rw [residue_of_le (by omega)]
  · rw [residue, if_neg (by omega), show r + w - 1 = (r + w - 2 ^ b) + (2 ^ b - 1) by omega,
      Nat.add_mod_right, Nat.mod_eq_of_lt (by omega)]

/-- The folded sum is the residue of the plain sum (R8). -/
theorem foldedSum_eq_residue {b : Nat} {ws : List Nat} (hb : 0 < b) (h : ∀ w ∈ ws, w < 2 ^ b) :
    foldedSum b ws = residue b ws.sum := by
  suffices ∀ n, ws.foldl (foldAdd b) (residue b n) = residue b (n + ws.sum) by simpa [foldedSum, residue] using this 0
  induction ws with
  | nil => simp
  | cons w ws ih =>
    intro n
    rw [List.foldl_cons, foldAdd_residue hb (h w (by simp)), ih fun x hx => h x (by simp [hx]), List.sum_cons,
      Nat.add_assoc]

/-- Settles O4, by the folded sum being the residue of the plain sum. -/
theorem foldedSumRule : Obligations.FoldedSumRule := by
  intro b ws hb h
  have hm := two_pow_gt_one hb
  have eq := foldedSum_eq_residue hb h
  refine ⟨rfl, fun w hw => ?step, ?range, ?zero, ?remainder, fun vs hp => ?order, fun vs hv hs => ?sumAlone⟩
  case step =>
    rw [foldedSum, List.foldl_append, ← foldedSum, List.foldl_cons, List.foldl_nil, foldAdd]
    split <;> split <;> omega
  case range => exact eq ▸ residue_le hb _
  case zero => rw [eq, residue_eq_zero, List.sum_eq_zero_iff]
  case remainder => rw [eq, residue_mod]
  case order => rw [eq, foldedSum_eq_residue hb fun v hv => h v (hp.mem_iff.1 hv), hp.sum_eq]
  case sumAlone => rw [eq, foldedSum_eq_residue hb hv, hs]

/-- A field passes exactly when its plain sum is a positive multiple of 2^B − 1 (R10). -/
theorem passes_iff {b : Nat} {f : Field} (hb : 0 < b) (h : ∀ w ∈ f, w < 2 ^ b) :
    passes b f = true ↔ 0 < f.sum ∧ f.sum % (2 ^ b - 1) = 0 := by
  rw [passes, decide_eq_true_iff, foldedSum_eq_residue hb h, residue_eq_top hb]

/-- Data with the check word R9 gives it folds to all ones. -/
theorem foldedSum_append_checkWord {b : Nat} {data : List Nat} (hb : 0 < b) (h : ∀ w ∈ data, w < 2 ^ b) :
    foldedSum b (data ++ [checkWord b data]) = 2 ^ b - 1 := by
  have hle : foldedSum b data ≤ 2 ^ b - 1 := foldedSum_eq_residue hb h ▸ residue_le hb _
  have := two_pow_gt_one hb
  rw [foldedSum, List.foldl_append, ← foldedSum, List.foldl_cons, List.foldl_nil, foldAdd, checkWord, if_pos] <;> omega

/-- Inverting bit `k` adds or takes away 2^k. -/
theorem xor_two_pow_cases (k w : Nat) : w ^^^ 2 ^ k = w + 2 ^ k ∨ (w ^^^ 2 ^ k) + 2 ^ k = w := by
  induction k generalizing w with
  | zero =>
    have hdiv : (w ^^^ 1) / 2 = w / 2 := by simp [Nat.xor_div_two]
    have hmod : (w ^^^ 1) % 2 = (w + 1) % 2 := Nat.xor_mod_two_eq
    rw [pow_zero]
    omega
  | succ k ih =>
    have hdiv : (w ^^^ 2 ^ (k + 1)) / 2 = w / 2 ^^^ 2 ^ k := by simp [Nat.xor_div_two, pow_succ]
    have hmod : (w ^^^ 2 ^ (k + 1)) % 2 = (w + 2 ^ (k + 1)) % 2 := Nat.xor_mod_two_eq
    rcases ih (w / 2) with h | h <;> omega

/-- Inverting one bit of a field leaves its words below 2^B and changes its plain sum by a power of 2 below 2^B. -/
theorem flipBit_sum {b p : Nat} {f : Field} (hb : 0 < b) (h : ∀ w ∈ f, w < 2 ^ b) (hp : p < f.length * b) :
    (∀ w ∈ flipBit b f p, w < 2 ^ b) ∧
      ∃ k < b, (flipBit b f p).sum = f.sum + 2 ^ k ∨ (flipBit b f p).sum + 2 ^ k = f.sum := by
  have hi : p / b < f.length := (Nat.div_lt_iff_lt_mul hb).2 hp
  obtain ⟨pre, w, post, hf, -, hflip⟩ := List.exists_of_modify (fun w => w ^^^ 2 ^ (b - 1 - p % b)) hi
  have hk : b - 1 - p % b < b := by omega
  have hw : w < 2 ^ b := h w (by simp [hf])
  rw [flipBit, hflip]
  refine ⟨fun x hx => ?_, _, hk, ?_⟩
  · rw [List.mem_append, List.mem_cons] at hx
    rcases hx with hx | rfl | hx
    · exact h x (by simp [hf, hx])
    · exact Nat.xor_lt_two_pow hw (Nat.pow_lt_pow_right (by omega) hk)
    · exact h x (by simp [hf, hx])
  · rw [hf]
    simp only [List.sum_append, List.sum_cons]
    rcases xor_two_pow_cases (b - 1 - p % b) w with e | e
    · exact .inl (by rw [e]; ac_rfl)
    · exact .inr (by conv_rhs => rw [← e]
                     ac_rfl)

/-- A power of 2 below 2^B is no multiple of 2^B − 1, so two plain sums that differ by it are not both multiples. -/
theorem not_both_multiples {b k m n : Nat} (hb : 1 < b) (hk : k < b) (h : m = n + 2 ^ k)
    (hm : m % (2 ^ b - 1) = 0) (hn : n % (2 ^ b - 1) = 0) : False := by
  have hle : 2 ^ k ≤ 2 ^ (b - 1) := Nat.pow_le_pow_right (by omega) (by omega)
  have hhalf : 2 ^ b = 2 * 2 ^ (b - 1) := by rw [← pow_succ', Nat.sub_add_cancel (by omega)]
  have hbig : 1 < 2 ^ (b - 1) := two_pow_gt_one (by omega)
  have hdvd : 2 ^ b - 1 ∣ 2 ^ k :=
    (Nat.dvd_add_right (Nat.dvd_of_mod_eq_zero hn)).1 (h ▸ Nat.dvd_of_mod_eq_zero hm)
  have := Nat.le_of_dvd (Nat.two_pow_pos k) hdvd
  omega

/-- Settles O5: what passes is a multiple of 2^B − 1, and one inverted bit moves the sum off the multiples. -/
theorem checkPassesExactly : Obligations.CheckPassesExactly := by
  intro b f hb h
  have hb0 : 0 < b := by omega
  refine ⟨passes_iff hb0 h, by simp [passes, foldedSum_append_checkWord hb0 h], fun hpass p hp => ?_⟩
  obtain ⟨hwords, k, hk, hsum⟩ := flipBit_sum hb0 h hp
  by_contra hflip
  have hflip := (passes_iff hb0 hwords).1 (Bool.eq_true_of_not_eq_false hflip)
  have hpass := (passes_iff hb0 h).1 hpass
  rcases hsum with hs | hs
  · exact not_both_multiples hb hk hs hflip.2 hpass.2
  · exact not_both_multiples hb hk hs.symm hpass.2 hflip.2

/-- Settles O6, each limit case from the plain sum of its field. -/
theorem checkLimitCases : Obligations.CheckLimitCases := by
  intro b n hb
  have hb0 : 0 < b := by omega
  have hm := two_pow_gt_one hb0
  have hzeros : ∀ n, foldedSum b (List.replicate n 0) = 0 := fun n => by
    rw [foldedSum_eq_residue hb0 fun w hw => by rw [List.eq_of_mem_replicate hw]; omega]
    simp [residue]
  have hones : foldedSum b (List.replicate (n + 1) (2 ^ b - 1)) = 2 ^ b - 1 := by
    rw [foldedSum_eq_residue hb0 fun w hw => by rw [List.eq_of_mem_replicate hw]; omega, residue_eq_top hb0,
      List.sum_replicate, smul_eq_mul]
    exact ⟨Nat.mul_pos n.succ_pos (by omega), Nat.mul_mod_left _ _⟩
  have hcheck : checkWord b (List.replicate n 0) = 2 ^ b - 1 := by simp [checkWord, hzeros]
  have hzerosCheck : foldedSum b (List.replicate n 0 ++ [2 ^ b - 1]) = 2 ^ b - 1 := by
    simpa only [hcheck] using foldedSum_append_checkWord (data := List.replicate n 0) hb0
      fun w hw => by rw [List.eq_of_mem_replicate hw]; omega
  refine ⟨⟨hcheck, hzerosCheck, by simp [passes, hzerosCheck]⟩, ⟨hzeros _, ?_⟩, ⟨hones, by simp [passes, hones]⟩,
    fun data h => ?_⟩
  · simp only [passes, hzeros, decide_eq_false_iff_not]
    omega
  · have hsame : foldedSum b (data ++ [0]) = 2 ^ b - 1 := by
      rw [foldedSum, List.foldl_append, ← foldedSum, h, List.foldl_cons, List.foldl_nil, foldAdd, if_pos] <;> omega
    exact ⟨by simp [checkWord, h], hsame, by simp [passes, hsame]⟩

end Sys2Proof.Machine
end

section
/-!
PROOFS. Packed images (R7): a word's bits spell the word, cutting a bit list into groups and joining them again adds
zeros at its end alone, so unpacking meets the words again.
-/

namespace Sys2Proof.Machine

@[simp] theorem wordBits_length (b w : Nat) : (wordBits b w).length = b := by simp [wordBits]

theorem wordBits_succ (b w : Nat) : wordBits (b + 1) w = w.testBit b :: wordBits b w := by
  simp only [wordBits, List.range_succ_eq_map, List.map_cons, List.map_map]
  congr 1
  refine List.map_congr_left fun k _ => ?_
  simp only [Function.comp_apply]
  congr 1
  omega

/-- The number spelled starts from what is spelled before it. -/
theorem foldl_bits (bs : List Bool) (n : Nat) :
    bs.foldl (fun n x => 2 * n + x.toNat) n = n * 2 ^ bs.length + bitsToNat bs := by
  induction bs generalizing n with
  | nil => simp [bitsToNat]
  | cons x xs ih =>
    rw [show bitsToNat (x :: xs) = (2 * 0 + x.toNat) * 2 ^ xs.length + bitsToNat xs from ih _, List.foldl_cons, ih,
      List.length_cons, pow_succ]
    ring

theorem bitsToNat_cons (x : Bool) (xs : List Bool) : bitsToNat (x :: xs) = x.toNat * 2 ^ xs.length + bitsToNat xs := by
  rw [bitsToNat, List.foldl_cons, foldl_bits]
  simp

theorem bitsToNat_lt (bs : List Bool) : bitsToNat bs < 2 ^ bs.length := by
  induction bs with
  | nil => simp [bitsToNat]
  | cons x xs ih =>
    rw [bitsToNat_cons, List.length_cons, pow_succ]
    cases x <;> simp <;> omega

theorem testBit_mod_succ (b w : Nat) : w % 2 ^ (b + 1) = (w.testBit b).toNat * 2 ^ b + w % 2 ^ b := by
  rw [Nat.toNat_testBit, pow_succ, Nat.mod_mul]
  ring

/-- The bits of a word spell its low B bits (R6). -/
theorem bitsToNat_wordBits (b w : Nat) : bitsToNat (wordBits b w) = w % 2 ^ b := by
  induction b with
  | zero => simp [wordBits, bitsToNat, Nat.mod_one]
  | succ b ih => rw [wordBits_succ, bitsToNat_cons, wordBits_length, ih, testBit_mod_succ]

/-- The bits of the number a list spells are the list. -/
theorem wordBits_bitsToNat (bs : List Bool) : wordBits bs.length (bitsToNat bs) = bs := by
  induction bs with
  | nil => simp [wordBits]
  | cons x xs ih =>
    have hlt := bitsToNat_lt xs
    have low : wordBits xs.length (bitsToNat (x :: xs)) = wordBits xs.length (bitsToNat xs) := by
      refine List.map_congr_left fun k hk => ?_
      rw [List.mem_range] at hk
      rw [bitsToNat_cons, Nat.mul_comm, Nat.testBit_two_pow_mul_add _ hlt, if_pos (by omega)]
    rw [List.length_cons, wordBits_succ, low, ih, bitsToNat_cons, Nat.mul_comm, Nat.testBit_two_pow_mul_add _ hlt]
    cases x <;> simp

theorem groups_length (k n : Nat) (bs : List Bool) : (groups k n bs).length = n := by
  induction n generalizing bs with
  | zero => rfl
  | succ n ih => simp [groups, ih]

theorem length_of_mem_groups {k n : Nat} {bs g : List Bool} (h : g ∈ groups k n bs) : g.length = k := by
  induction n generalizing bs with
  | zero => simp [groups] at h
  | succ n ih =>
    rw [groups, List.mem_cons] at h
    rcases h with rfl | h
    · rw [List.length_append, List.length_take, List.length_replicate]
      omega
    · exact ih h

/-- Groups that hold the whole list, joined again, are the list with zeros after it. -/
theorem groups_flatten {k n : Nat} {bs : List Bool} (h : bs.length ≤ n * k) :
    (groups k n bs).flatten = bs ++ List.replicate (n * k - bs.length) false := by
  induction n generalizing bs with
  | zero =>
    have : bs = [] := List.length_eq_zero_iff.1 (by omega)
    simp [groups, this]
  | succ n ih =>
    rw [Nat.succ_mul] at h ⊢
    rw [groups, List.flatten_cons, ih (by rw [List.length_drop]; omega), List.length_drop]
    rcases Nat.le_total bs.length k with hle | hge
    · rw [List.take_of_length_le hle, List.drop_of_length_le hle, List.nil_append, List.append_assoc,
        List.replicate_append_replicate]
      congr 2
      omega
    · rw [Nat.sub_eq_zero_of_le hge, List.replicate_zero, List.append_nil, ← List.append_assoc, List.take_append_drop]
      congr 2
      omega

/-- A field's bits cut into groups of B are the bits of its words, whatever follows them. -/
theorem groups_fieldBits (b : Nat) (f : Field) (pad : List Bool) :
    groups b f.length (fieldBits b f ++ pad) = f.map (wordBits b) := by
  induction f with
  | nil => rfl
  | cons w ws ih =>
    have hbits : fieldBits b (w :: ws) = wordBits b w ++ fieldBits b ws := rfl
    rw [hbits, List.length_cons, groups, List.append_assoc, List.take_left' (wordBits_length b w),
      List.drop_left' (wordBits_length b w), ih, List.length_append, wordBits_length, Nat.sub_eq_zero_of_le (by omega)]
    simp

theorem fieldBits_length (b : Nat) (f : Field) : (fieldBits b f).length = f.length * b := by
  simp [fieldBits]

theorem packImage_length (b : Nat) (f : Field) : (packImage b f).length = (f.length * b + 7) / 8 := by
  simp [packImage, groups_length, imageBytes]

/-- The bits of a packed image's bytes are the field's bits with zeros after them (R7). -/
theorem packImage_bits (b : Nat) (f : Field) :
    ∃ n, ((packImage b f).flatMap fun x => wordBits 8 x.toNat) = fieldBits b f ++ List.replicate n false := by
  have hbyte : ∀ g ∈ groups 8 (imageBytes b f.length) (fieldBits b f),
      wordBits 8 (BitVec.ofNat 8 (bitsToNat g)).toNat = g := fun g hg => by
    have hlen := length_of_mem_groups hg
    rw [BitVec.toNat_ofNat, Nat.mod_eq_of_lt (hlen ▸ bitsToNat_lt g)]
    exact hlen ▸ wordBits_bitsToNat g
  refine ⟨_, .trans ?_ (groups_flatten (k := 8) (n := imageBytes b f.length) ?_)⟩
  · rw [packImage, List.flatMap_map, List.flatMap_congr hbyte, List.flatMap_id']
  · rw [fieldBits_length, imageBytes]
    omega

/-- A field packed and unpacked again is the field (R7). -/
theorem unpackImage_packImage {b : Nat} {f : Field} (h : ∀ w ∈ f, w < 2 ^ b) :
    unpackImage b f.length (packImage b f) = f := by
  obtain ⟨n, hbits⟩ := packImage_bits b f
  rw [unpackImage, hbits, groups_fieldBits, List.map_map, List.map_congr_left (g := id), List.map_id]
  intro w hw
  exact (bitsToNat_wordBits b w).trans (Nat.mod_eq_of_lt (h w hw))

/-- Settles O7, from the bits of the packed bytes. -/
theorem packedImageUnpacks : Obligations.PackedImageUnpacks :=
  fun b f _ h => ⟨packImage_length b f, unpackImage_packImage h⟩

end Sys2Proof.Machine
end

section
/-!
PROOFS. What is given to the device from outside: the settings of the service channel, the view and the recent orders.
Each operation of the device on its own account leaves all of it as it is; one lemma for each operation, in the order of
the definitions, so that a command's lemma is a short use of them.
-/

namespace Sys2Proof.Machine

/-- The straps and the settings of the service channel stay as they are (R1, R178, R185, R191). -/
@[simp] abbrev KeepsSettings (s t : State) : Prop :=
  t.straps = s.straps ∧ t.svc = s.svc ∧ t.tables = s.tables ∧ t.map.staging = s.map.staging

/-- The view and the recent orders stay as they are (R18, R35). -/
@[simp] abbrev KeepsView (s t : State) : Prop :=
  t.ctl.cyl = s.ctl.cyl ∧ t.ctl.head = s.ctl.head ∧ t.ctl.strobe = s.ctl.strobe ∧ t.ctl.offset = s.ctl.offset ∧
    t.ctl.recentOrders = s.ctl.recentOrders

/-- What is given to the device from outside stays as it is: the settings, the view and the recent orders. -/
@[simp] abbrev KeepsGiven (s t : State) : Prop := KeepsSettings s t ∧ KeepsView s t

/-- What is given to a state chosen by a condition is what is given to the one chosen. -/
@[simp] theorem given_ite (p : Prop) [Decidable p] (s t : State) :
    ((if p then s else t).straps = if p then s.straps else t.straps) ∧
    ((if p then s else t).svc = if p then s.svc else t.svc) ∧
    ((if p then s else t).tables = if p then s.tables else t.tables) ∧
    ((if p then s else t).map.staging = if p then s.map.staging else t.map.staging) ∧
    ((if p then s else t).ctl.cyl = if p then s.ctl.cyl else t.ctl.cyl) ∧
    ((if p then s else t).ctl.head = if p then s.ctl.head else t.ctl.head) ∧
    ((if p then s else t).ctl.strobe = if p then s.ctl.strobe else t.ctl.strobe) ∧
    ((if p then s else t).ctl.offset = if p then s.ctl.offset else t.ctl.offset) ∧
    ((if p then s else t).ctl.recentOrders = if p then s.ctl.recentOrders else t.ctl.recentOrders) := by
  split <;> simp

/-! ### Time and the drive port -/

@[simp] theorem advance_keepsGiven {dt} (s : State) : KeepsGiven s (advance dt s) := by simp [advance]

@[simp] theorem advanceTo_keepsGiven {t} (s : State) : KeepsGiven s (advanceTo t s) := by simp [advanceTo]

@[simp] theorem begin_keepsGiven {dt} (s : State) : KeepsGiven s (begin dt s) := by simp [begin]

@[simp] theorem beginAt_keepsGiven {t} (s : State) : KeepsGiven s (beginAt t s) := by simp [beginAt]

@[simp] theorem issueOrder_keepsGiven {o} (s : State) : KeepsGiven s (issueOrder o s) := by
  unfold issueOrder
  split <;> simp

@[simp] theorem issueStep_keepsGiven {o m} (s : State) : KeepsGiven s (issueStep o m s) := by simp [issueStep]

@[simp] theorem completeStep_keepsGiven {st} (s : State) : KeepsGiven s (completeStep st s) := by
  unfold completeStep
  split <;> simp

@[simp] theorem lowerReadGate_keepsGiven (s : State) : KeepsGiven s (lowerReadGate s) := by simp [lowerReadGate]

@[simp] theorem lowerWriteGate_keepsGiven (s : State) : KeepsGiven s (lowerWriteGate s) := by simp [lowerWriteGate]

@[simp] theorem setHolder_keepsGiven {h} (s : State) : KeepsGiven s (setHolder h s) := by simp [setHolder]

@[simp] theorem abandonCapture_keepsGiven (s : State) : KeepsGiven s (abandonCapture s) := by
  unfold abandonCapture
  split <;> simp

@[simp] theorem dropWork_keepsGiven (s : State) : KeepsGiven s (dropWork s) := by simp [dropWork]

@[simp] theorem giveUp_keepsGiven (s : State) : KeepsGiven s (giveUp s) := by simp [giveUp]

@[simp] theorem interruptSweep_keepsGiven (s : State) : KeepsGiven s (interruptSweep s) := by simp [interruptSweep]

@[simp] theorem takeDrive_keepsGiven (s : State) : KeepsGiven s (takeDrive s) := by simp [takeDrive]

@[simp] theorem endUse_keepsGiven (s : State) : KeepsGiven s (endUse s) := by simp [endUse]

/-! ### Heads and the sweep's notices -/

@[simp] theorem changeHead_keepsGiven {h f} (s : State) : KeepsGiven s (changeHead h f s) := by
  unfold changeHead
  split <;> simp

@[simp] theorem creditCleanLook_keepsGiven {h} (s : State) : KeepsGiven s (creditCleanLook h s) := by
  simp [creditCleanLook]

@[simp] theorem debitLiveRead_keepsGiven {h} (s : State) : KeepsGiven s (debitLiveRead h s) := by simp [debitLiveRead]

@[simp] theorem noticeRecovered_keepsGiven {h m n} (s : State) : KeepsGiven s (noticeRecovered h m n s) := by
  simp [noticeRecovered]

@[simp] theorem noticeLost_keepsGiven {h} (s : State) : KeepsGiven s (noticeLost h s) := by simp [noticeLost]

@[simp] theorem noticeSweep_keepsGiven (s : State) : KeepsGiven s (noticeSweep s) := by
  unfold noticeSweep
  split <;> simp

/-! ### The map -/

@[simp] theorem passClaimSlot_keepsGiven {a} (s : State) : KeepsGiven s (passClaimSlot a s) := by
  unfold passClaimSlot
  split <;> simp

@[simp] theorem addEntry_keepsGiven {e} (s : State) : KeepsGiven s (addEntry e s) := by simp [addEntry]

@[simp] theorem settleInNewSlot_keepsGiven {a k f n w} (s : State) : KeepsGiven s (settleInNewSlot a k f n w s) := by
  simp [settleInNewSlot]

@[simp] theorem settleInOwnSlot_keepsGiven {a k f n w i} (s : State) :
    KeepsGiven s (settleInOwnSlot a k f n w i s) := by simp [settleInOwnSlot]

@[simp] theorem dropEntry_keepsGiven {a} (s : State) : KeepsGiven s (dropEntry a s) := by
  unfold dropEntry
  split <;> simp

@[simp] theorem mapRecovered_keepsGiven {a m f n w} (s : State) : KeepsGiven s (mapRecovered a m f n w s) := by
  simp [mapRecovered]

@[simp] theorem mapLost_keepsGiven {a f n w} (s : State) : KeepsGiven s (mapLost a f n w s) := by simp [mapLost]

@[simp] theorem releaseClaim_keepsGiven (s : State) : KeepsGiven s (releaseClaim s) := by simp [releaseClaim]

/-! ### Votes and the queue -/

@[simp] theorem handVote_keepsGiven {a i} (s : State) : KeepsGiven s (handVote a i s) := by
  unfold handVote
  split <;> simp

@[simp] theorem nextVote_keepsGiven (s : State) : KeepsGiven s (nextVote s) := by
  unfold nextVote
  split <;> simp

@[simp] theorem leaveHead_keepsGiven {j} (s : State) : KeepsGiven s (leaveHead j s) := by simp [leaveHead]

@[simp] theorem reorder_keepsGiven {f} (s : State) : KeepsGiven s (reorder f s) := by
  unfold reorder
  split <;> simp

@[simp] theorem removeJob_keepsGiven {a} (s : State) : KeepsGiven s (removeJob a s) := by simp [removeJob]

@[simp] theorem cancelJob_keepsGiven {a} (s : State) : KeepsGiven s (cancelJob a s) := by
  unfold cancelJob
  split <;> simp

/-! ### Operations and withholding -/

@[simp] theorem beginServed_keepsGiven {k a} (s : State) : KeepsGiven s (beginServed k a s) := by simp [beginServed]

@[simp] theorem beginLive_keepsGiven {k a} (s : State) : KeepsGiven s (beginLive k a s) := by simp [beginLive]

@[simp] theorem dropReseat_keepsGiven (s : State) : KeepsGiven s (dropReseat s) := by
  unfold dropReseat
  split <;> simp

@[simp] theorem closeWithhold_keepsGiven {k} (s : State) : KeepsGiven s (closeWithhold k s) := by
  unfold closeWithhold
  split <;> simp

@[simp] theorem withholdServed_keepsGiven {a} (s : State) : KeepsGiven s (withholdServed a s) := by
  simp [withholdServed]

@[simp] theorem withholdLive_keepsGiven {k a} (s : State) : KeepsGiven s (withholdLive k a s) := by
  simp [withholdLive]

@[simp] theorem demoteJob_keepsGiven {a} (s : State) : KeepsGiven s (demoteJob a s) := by
  unfold demoteJob
  dsimp only
  split <;> simp

@[simp] theorem endWithholdDemoting_keepsGiven {k} (s : State) : KeepsGiven s (endWithholdDemoting k s) := by
  unfold endWithholdDemoting
  split <;> simp

/-! ### The ends of jobs, and rungs -/

@[simp] theorem endRecovered_keepsGiven {a m f} (s : State) : KeepsGiven s (endRecovered a m f s) := by
  unfold endRecovered
  split <;> simp

@[simp] theorem endLost_keepsGiven {a k} (s : State) : KeepsGiven s (endLost a k s) := by
  unfold endLost
  split <;> simp

@[simp] theorem arriveRung_keepsGiven {a} (s : State) : KeepsGiven s (arriveRung a s) := by
  unfold arriveRung
  split <;> simp

@[simp] theorem startRung_keepsGiven {a} (s : State) : KeepsGiven s (startRung a s) := by
  unfold startRung
  dsimp only
  split <;> simp

@[simp] theorem goToRung_keepsGiven (s : State) : KeepsGiven s (goToRung s) := by
  unfold goToRung
  split <;> simp

@[simp] theorem failRung_keepsGiven {a f} (s : State) : KeepsGiven s (failRung a f s) := by
  unfold failRung
  split
  · simp
  · split <;> simp

@[simp] theorem endRung_keepsGiven {a r} (s : State) : KeepsGiven s (endRung a r s) := by
  unfold endRung
  split
  · split <;> simp
  · simp

@[simp] theorem chargeRead_keepsGiven {a} (s : State) : KeepsGiven s (chargeRead a s) := by
  unfold chargeRead
  dsimp only
  split <;> simp

@[simp] theorem enqueueJob_keepsGiven {j} (s : State) : KeepsGiven s (enqueueJob j s) := by simp [enqueueJob]

@[simp] theorem admitSector_keepsGiven {a c o} (s : State) : KeepsGiven s (admitSector a c o s) := by
  simp [admitSector]

@[simp] theorem requestJob_keepsGiven {a c o} (s : State) : KeepsGiven s (requestJob a c o s) := by
  unfold requestJob
  split <;> simp

/-! ### Episodes and grants -/

@[simp] theorem startEpisode_keepsGiven (s : State) : KeepsGiven s (startEpisode s) := by simp [startEpisode]

@[simp] theorem jobPositionFailure_keepsGiven {a} (s : State) : KeepsGiven s (jobPositionFailure a s) := by
  unfold jobPositionFailure
  split <;> simp

@[simp] theorem takeUpRung_keepsGiven {a} (s : State) : KeepsGiven s (takeUpRung a s) := by
  unfold takeUpRung
  split <;> simp

@[simp] theorem grantHead_keepsGiven (s : State) : KeepsGiven s (grantHead s) := by
  unfold grantHead
  split <;> simp

@[simp] theorem handOver_keepsGiven (s : State) : KeepsGiven s (handOver s) := by
  unfold handOver
  dsimp only
  split <;> simp

/-! ### The sweep -/

@[simp] theorem grantSweep_keepsGiven (s : State) : KeepsGiven s (grantSweep s) := by simp [grantSweep]

@[simp] theorem leaveTrack_keepsGiven (s : State) : KeepsGiven s (leaveTrack s) := by simp [leaveTrack]

@[simp] theorem endTrack_keepsGiven (s : State) : KeepsGiven s (endTrack s) := by simp [endTrack]

@[simp] theorem sweepPositionFailure_keepsGiven (s : State) : KeepsGiven s (sweepPositionFailure s) := by
  simp [sweepPositionFailure]

@[simp] theorem runSweep_keepsGiven (s : State) : KeepsGiven s (runSweep s) := by
  unfold runSweep
  split <;> simp

@[simp] theorem afterSweepCapture_keepsGiven (s : State) : KeepsGiven s (afterSweepCapture s) := by
  simp [afterSweepCapture]

@[simp] theorem sweepRequest_keepsGiven {a} (s : State) : KeepsGiven s (sweepRequest a s) := by
  unfold sweepRequest
  split
  · simp
  · split <;> simp

/-! ### Positioning and the acts of settling -/

@[simp] theorem travelStep_keepsGiven {o m t} (s : State) : KeepsGiven s (travelStep o m t s) := by simp [travelStep]

@[simp] theorem issueTarget_keepsGiven (s : State) : KeepsGiven s (issueTarget s) := by
  unfold issueTarget
  split
  · simp
  · split <;> simp

@[simp] theorem arrive_keepsGiven {t} (s : State) : KeepsGiven s (arrive t s) := by
  unfold arrive
  split <;> simp

@[simp] theorem makeMove_keepsGiven {t} (s : State) : KeepsGiven s (makeMove t s) := by
  unfold makeMove
  split
  · split <;> simp
  · split <;> simp

@[simp] theorem travelFails_keepsGiven {m t} (s : State) : KeepsGiven s (travelFails m t s) := by
  unfold travelFails
  cases t.purpose
  case reseatLive | reseatWithhold => simp
  case rung | sweep =>
    cases t.retry with
    | none => simp
    | some _ => cases headJob s <;> simp

@[simp] theorem readSector_keepsGiven {j} (s : State) : KeepsGiven s (readSector j s) := by simp [readSector]

@[simp] theorem runJob_keepsGiven (s : State) : KeepsGiven s (runJob s) := by
  unfold runJob
  split <;> simp

@[simp] theorem beginRest_keepsGiven (s : State) : KeepsGiven s (beginRest s) := by simp [beginRest]

@[simp] theorem relayOrder_keepsGiven (s : State) : KeepsGiven s (relayOrder s) := by
  unfold relayOrder
  split <;> simp

@[simp] theorem passDrive_keepsGiven (s : State) : KeepsGiven s (passDrive s) := by
  unfold passDrive
  split <;> simp

@[simp] theorem doAct_keepsGiven {x} (s : State) : KeepsGiven s (doAct x s) := by
  cases x
  case move => cases h : s.drv.travel <;> simp [doAct, h]
  all_goals simp [doAct]

@[simp] theorem settle_keepsGiven (s : State) : KeepsGiven s (settle s) :=
  settle_induct (P := KeepsGiven s) (fun x t h => by simpa using h) (by simp)

/-! ### The LOST judgement and the drive's events -/

@[simp] theorem lostClear_keepsGiven (s : State) : KeepsGiven s (lostClear s) := by simp [lostClear]

@[simp] theorem headLosesDrive_keepsGiven (s : State) : KeepsGiven s (headLosesDrive s) := by
  unfold headLosesDrive
  dsimp only
  split <;> simp

@[simp] theorem startGenerator_keepsGiven (s : State) : KeepsGiven s (startGenerator s) := by simp [startGenerator]

@[simp] theorem operationLosesDrive_keepsGiven (s : State) : KeepsGiven s (operationLosesDrive s) := by
  unfold operationLosesDrive
  split
  · simp
  · split <;> simp

@[simp] theorem passiveGoesOn_keepsGiven (s : State) : KeepsGiven s (passiveGoesOn s) := by simp [passiveGoesOn]

@[simp] theorem judgeLost_keepsGiven (s : State) : KeepsGiven s (judgeLost s) := by simp [judgeLost]

@[simp] theorem relayedEnds_keepsGiven {ok} (s : State) : KeepsGiven s (relayedEnds ok s) := by simp [relayedEnds]

@[simp] theorem stepCompletes_keepsGiven (s : State) : KeepsGiven s (stepCompletes s) := by
  unfold stepCompletes
  split <;> simp

@[simp] theorem stepFails_keepsGiven (s : State) : KeepsGiven s (stepFails s) := by
  unfold stepFails
  cases s.drv.step with
  | none => simp
  | some st =>
    cases hm : st.move <;> cases ht : s.drv.travel <;> simp [hm, ht]

@[simp] theorem promoteLive_keepsGiven {a f} (s : State) : KeepsGiven s (promoteLive a f s) := by
  unfold promoteLive
  split
  · simp
  · split <;> simp

@[simp] theorem liveFull_keepsGiven {a f} (s : State) : KeepsGiven s (liveFull a f s) := by simp [liveFull]

@[simp] theorem recoveryFull_keepsGiven {a f} (s : State) : KeepsGiven s (recoveryFull a f s) := by
  simp [recoveryFull]

@[simp] theorem sweepFull_keepsGiven {a f} (s : State) : KeepsGiven s (sweepFull a f s) := by simp [sweepFull]

@[simp] theorem sweepShort_keepsGiven {a} (s : State) : KeepsGiven s (sweepShort a s) := by
  unfold sweepShort
  split <;> simp

@[simp] theorem captureEndsFull_keepsGiven {c f r} (s : State) : KeepsGiven s (captureEndsFull c f r s) := by
  unfold captureEndsFull
  split <;> simp

@[simp] theorem captureEndsShort_keepsGiven {c} (s : State) : KeepsGiven s (captureEndsShort c s) := by
  unfold captureEndsShort
  split <;> simp

@[simp] theorem relayMatch_keepsGiven (s : State) : KeepsGiven s (relayMatch s) := by
  unfold relayMatch
  split <;> simp

@[simp] theorem judgeIndex_keepsGiven (s : State) : KeepsGiven s (judgeIndex s) := by
  unfold judgeIndex
  split <;> simp

@[simp] theorem indexAtCapture_keepsGiven (s : State) : KeepsGiven s (indexAtCapture s) := by
  unfold indexAtCapture
  split <;> simp

@[simp] theorem indexAtSweep_keepsGiven (s : State) : KeepsGiven s (indexAtSweep s) := by simp [indexAtSweep]

@[simp] theorem faultAtHolder_keepsGiven (s : State) : KeepsGiven s (faultAtHolder s) := by simp [faultAtHolder]

@[simp] theorem resumeAfterFault_keepsGiven {e} (s : State) : KeepsGiven s (resumeAfterFault e s) := by
  unfold resumeAfterFault
  dsimp only
  split <;> simp

/-! ### What an order ends, and what it acts -/

@[simp] theorem lowerLiveReadGate_keepsGiven (s : State) : KeepsGiven s (lowerLiveReadGate s) := by
  unfold lowerLiveReadGate
  split <;> simp

@[simp] theorem stopSending_keepsGiven {o} (s : State) : KeepsGiven s (stopSending o s) := by simp [stopSending]

@[simp] theorem endOperation_keepsGiven (s : State) : KeepsGiven s (endOperation s) := by
  unfold endOperation
  split
  · simp
  · split <;> simp

@[simp] theorem endWithholdByOrder_keepsGiven (s : State) : KeepsGiven s (endWithholdByOrder s) := by
  unfold endWithholdByOrder
  split <;> simp

@[simp] theorem relay_keepsGiven {o} (s : State) : KeepsGiven s (relay o s) := by simp [relay]

@[simp] theorem startViewSettle_keepsGiven (s : State) : KeepsGiven s (startViewSettle s) := by simp [startViewSettle]

@[simp] theorem positionView_keepsGiven (s : State) : KeepsGiven s (positionView s) := by
  unfold positionView
  cases h : s.svc.mode <;> simp [h]

@[simp] theorem actPosition_keepsGiven {o} (s : State) : KeepsGiven s (actPosition o s) := by simp [actPosition]

@[simp] theorem actHead_keepsGiven {h} (s : State) : KeepsGiven s (actHead h s) := by simp [actHead]

@[simp] theorem actMargin_keepsGiven {st off bef} (s : State) : KeepsGiven s (actMargin st off bef s) := by
  unfold actMargin
  cases s.svc.mode <;> simp

@[simp] theorem actClear_keepsGiven (s : State) : KeepsGiven s (actClear s) := by simp [actClear]

@[simp] theorem beginWithhold_keepsGiven {a} (s : State) : KeepsGiven s (beginWithhold a s) := by simp [beginWithhold]

@[simp] theorem decideRead_keepsGiven {a} (s : State) : KeepsGiven s (decideRead a s) := by
  unfold decideRead
  split
  · simp
  · split <;> simp

@[simp] theorem actTargetRead_keepsGiven {k} (s : State) : KeepsGiven s (actTargetRead k s) := by
  unfold actTargetRead
  cases s.svc.mode <;> simp

@[simp] theorem actTargetWrite_keepsGiven {k} (s : State) : KeepsGiven s (actTargetWrite k s) := by
  unfold actTargetWrite
  cases s.svc.mode <;> simp

/-! ### Written fields and gates -/

@[simp] theorem overlay_keepsGiven {a f} (s : State) : KeepsGiven s (overlay a f s) := by
  unfold overlay
  split
  · simp
  · split <;> simp

@[simp] theorem endField_keepsGiven (s : State) : KeepsGiven s (endField s) := by simp [endField]

@[simp] theorem passBits_keepsGiven {bits} (s : State) : KeepsGiven s (passBits bits s) := by simp [passBits]

@[simp] theorem transfer_keepsGiven {o} (s : State) : KeepsGiven s (transfer o s) := by simp [transfer]

@[simp] theorem matched_keepsGiven {o} (s : State) : KeepsGiven s (matched o s) := by simp [matched]

/-! ### Timers and votes -/

@[simp] theorem quietPasses_keepsGiven (s : State) : KeepsGiven s (quietPasses s) := by simp [quietPasses]

@[simp] theorem limitPasses_keepsGiven (s : State) : KeepsGiven s (limitPasses s) := by simp [limitPasses]

@[simp] theorem voteFails_keepsGiven {a} (s : State) : KeepsGiven s (voteFails a s) := by
  unfold voteFails
  split <;> simp

@[simp] theorem takeOutcome_keepsGiven {v} (s : State) : KeepsGiven s (takeOutcome v s) := by
  unfold takeOutcome
  dsimp only
  split <;> simp

@[simp] theorem endRest_keepsGiven (s : State) : KeepsGiven s (endRest s) := by simp

/-- Taking an order changes none of the settings. -/
@[simp] theorem takeOrder_keepsSettings {o} (s : State) : KeepsSettings s (takeOrder o s) := by
  cases o <;> simp [takeOrder, recordOrder, updateView]

/-! ### Whole commands -/

/-- Every state a command can end in meets a property. -/
def LeadsTo (P : State → Prop) (r : Host.Outcome State Fault Refusal) : Prop := ∀ t, r = .next t → P t

@[simp] theorem leadsTo_next {P : State → Prop} {t : State} : LeadsTo P (.next t) ↔ P t :=
  ⟨fun h => h t rfl, fun h _ e => by cases e; exact h⟩

/-- A command that is no power-up, carries no field and is no service command changes none of the settings. -/
theorem exec_keepsSettings {c : Instr} (s : State) (hp : isPowerUp c = false) (hf : carriesField c = false)
    (he : encodeFrame c = none) : LeadsTo (KeepsSettings s) (exec c s) := by
  cases c
  case powerUp => cases hp
  case writeFieldFull | commandFrameRefused => cases hf
  case setGeometry | setParameters | loadZone | clearZone | setLadderHeader | loadRung | clearLadder | setHead
      | startSweep | setSweepStop | abortSweep | queueSector | releaseEntry | importPage | exportPage | readMap
      | readQueue | readHealth | readLog | clearLog | readLadder | readZones | activate | captiveOn | captiveOff
      | passivate => cases he
  case position | head | returnOrder | margin | targetRead | targetWrite | clear =>
    simp [exec, execPosition, execHead, execReturnOrder, execMargin, execTargetRead, execTargetWrite, execClear]
  case driveIndex | driveReadyRises | driveFaultRises | driveProtectChanges | positioningStepCompletes
      | positioningStepFails =>
    simp [exec, execDriveIndex, execDriveReadyRises, execDriveFaultRises, execDriveProtectChanges,
      execPositioningStepCompletes, execPositioningStepFails]
  case readGate | readGateFalls | writeGate | writeGateFalls =>
    dsimp only [exec, execReadGate, execReadGateFalls, execWriteGate, execWriteGateFalls]
    repeat' split
    all_goals simp
  case writeClockTimeout | servedTransferEnds | generatedMatch =>
    dsimp only [exec, execWriteClockTimeout, execServedTransferEnds, execGeneratedMatch]
    repeat' split
    all_goals simp
  case driveMatch | captureFull | readClockTimeout | driveReadyFalls | driveFaultFalls =>
    dsimp only [exec, execDriveMatch, execCaptureFull, execReadClockTimeout, execDriveReadyFalls, execDriveFaultFalls]
    repeat' split
    all_goals simp
  case positionTimeout | marginUnknownSettle | faultEpisodeTimeout | indexWatchdog =>
    dsimp only [exec, execPositionTimeout, execMarginUnknownSettle, execFaultEpisodeTimeout, execIndexWatchdog]
    repeat' split
    all_goals simp
  case generatedIndex | viewSettle | quietInterval | withholdLimit | voteCompletes =>
    dsimp only [exec, execGeneratedIndex, execViewSettle, execQuietInterval, execWithholdLimit, execVoteCompletes]
    repeat' split
    all_goals simp
  case workDurationReached | restEnds | idleTimer =>
    dsimp only [exec, execWorkDurationReached, execRestEnds, execIdleTimer]
    split <;> simp

/-! ### The straps under a service command -/

@[simp] theorem answer_straps {tag} (r : State × Reply) : (answer tag r).straps = r.1.straps := rfl

theorem setGeometryReply_straps {c h n} (s : State) : (setGeometryReply c h n s).1.straps = s.straps := by
  unfold setGeometryReply
  repeat' split
  all_goals rfl

theorem setParametersReply_straps {m a b c d e} (s : State) : (setParametersReply m a b c d e s).1.straps = s.straps := by
  simp [setParametersReply, limiterActs]

theorem loadZoneReply_straps {k h lo hi l} (s : State) : (loadZoneReply k h lo hi l s).1.straps = s.straps := by
  unfold loadZoneReply
  split <;> rfl

theorem clearZoneReply_straps {k} (s : State) : (clearZoneReply k s).1.straps = s.straps := by
  unfold clearZoneReply
  split <;> rfl

theorem setLadderHeaderReply_straps {k m l b} (s : State) : (setLadderHeaderReply k m l b s).1.straps = s.straps := by
  unfold setLadderHeaderReply
  split <;> rfl

theorem loadRungReply_straps {k i r0 r1} (s : State) : (loadRungReply k i r0 r1 s).1.straps = s.straps := by
  unfold loadRungReply
  dsimp only
  repeat' split
  all_goals rfl

theorem clearLadderReply_straps {k} (s : State) : (clearLadderReply k s).1.straps = s.straps := by
  unfold clearLadderReply
  split <;> rfl

theorem setHeadReply_straps {h m th sc} (s : State) : (setHeadReply h m th sc s).1.straps = s.straps := by
  unfold setHeadReply
  split <;> simp

theorem clearLogReply_straps (s : State) : (clearLogReply s).1.straps = s.straps := rfl

theorem readHealthReply_state {g} (s : State) : (readHealthReply g s).1 = s := by
  unfold readHealthReply
  split <;> rfl

theorem readLogReply_state {p} (s : State) : (readLogReply p s).1 = s := by
  unfold readLogReply
  repeat' split
  all_goals rfl

theorem readLadderReply_state {k} (s : State) : (readLadderReply k s).1 = s := by
  unfold readLadderReply
  split <;> rfl

theorem readZonesReply_state (s : State) : (readZonesReply s).1 = s := rfl

/-- A command on a sector address leaves what its own act leaves. -/
theorem addressed_keeps {P : State → Prop} {u0 u1 s act} (hs : P s) (hact : ∀ a, P (act a).1) :
    P (addressed u0 u1 s act).1 := by
  unfold addressed
  repeat' split
  · exact hs
  · exact hs
  · exact hact _

theorem queueSectorReply_straps {a0 a1} (s : State) : (queueSectorReply a0 a1 s).1.straps = s.straps := by
  unfold queueSectorReply
  split
  · rfl
  · refine addressed_keeps (P := fun t => t.straps = s.straps) rfl fun a => ?_
    unfold queueEntry
    repeat' split
    all_goals simp [queued, requeue]

theorem releaseEntryReply_straps {a0 a1} (s : State) : (releaseEntryReply a0 a1 s).1.straps = s.straps := by
  refine addressed_keeps (P := fun t => t.straps = s.straps) rfl fun a => ?_
  cases entryOf s a <;> simp

theorem importImage_straps {a f} (s : State) : (importImage a f s).1.straps = s.straps := by
  unfold importImage
  repeat' split
  all_goals simp [imported]

theorem importPageReply_straps {a0 a1 p us} (s : State) : (importPageReply a0 a1 p us s).1.straps = s.straps := by
  unfold importPageReply laterPage
  dsimp only
  repeat' split
  all_goals simp [importImage_straps]

theorem exportPageReply_state {a0 a1 p} (s : State) : (exportPageReply a0 a1 p s).1 = s := by
  unfold exportPageReply
  split
  · rfl
  · refine addressed_keeps (P := fun t => t = s) rfl fun a => ?_
    unfold exportImage
    repeat' split
    all_goals rfl

theorem readMapReply_state {a0 a1} (s : State) : (readMapReply a0 a1 s).1 = s := by
  unfold readMapReply
  repeat' split
  all_goals rfl

theorem readQueueReply_state {p} (s : State) : (readQueueReply p s).1 = s := by
  unfold readQueueReply
  repeat' split
  all_goals rfl

theorem replaceSweep_straps {w} (s : State) : (replaceSweep w s).straps = s.straps := by simp [replaceSweep]

theorem startSweepReply_straps {b l f p} (s : State) : (startSweepReply b l f p s).1.straps = s.straps := by
  unfold startSweepReply
  repeat' split
  all_goals simp [replaceSweep_straps]

theorem setSweepStopReply_straps {p} (s : State) : (setSweepStopReply p s).1.straps = s.straps := by
  unfold setSweepStopReply
  repeat' split
  all_goals rfl

theorem abortSweepReply_straps (s : State) : (abortSweepReply s).1.straps = s.straps := replaceSweep_straps s

theorem activateReply_straps (s : State) : (activateReply s).1.straps = s.straps := by
  unfold activateReply
  split <;> simp [activateLines, modeSettle]

theorem captiveOnReply_straps (s : State) : (captiveOnReply s).1.straps = s.straps := by
  unfold captiveOnReply
  split <;> simp [captiveLines]

theorem captiveOffReply_straps (s : State) : (captiveOffReply s).1.straps = s.straps := by
  unfold captiveOffReply
  split <;> simp [releaseLines]

theorem passivateReply_straps (s : State) : (passivateReply s).1.straps = s.straps := by
  unfold passivateReply
  split <;> simp [releaseLines, clearLimiter, cancelAll, markAllDiscard]

/-- A command run from a frame changes no strap (R1). -/
theorem runCommand_straps (c : Instr) (s : State) : (runCommand c s).straps = s.straps := by
  cases c
  case readHealth | readLog | readLadder | readZones | exportPage | readMap | readQueue =>
    simp [runCommand, readHealthReply_state, readLogReply_state, readLadderReply_state, readZonesReply_state,
      exportPageReply_state, readMapReply_state, readQueueReply_state]
  case setGeometry | setParameters | loadZone | clearZone | setLadderHeader | loadRung | clearLadder | setHead
      | clearLog =>
    simp [runCommand, setGeometryReply_straps, setParametersReply_straps, loadZoneReply_straps, clearZoneReply_straps,
      setLadderHeaderReply_straps, loadRungReply_straps, clearLadderReply_straps, setHeadReply_straps,
      clearLogReply_straps]
  case queueSector | releaseEntry | importPage =>
    simp [runCommand, queueSectorReply_straps, releaseEntryReply_straps, importPageReply_straps]
  case startSweep | setSweepStop | abortSweep | activate | captiveOn | captiveOff | passivate =>
    simp [runCommand, startSweepReply_straps, setSweepStopReply_straps, abortSweepReply_straps, activateReply_straps,
      captiveOnReply_straps, captiveOffReply_straps, passivateReply_straps]
  all_goals rfl

/-- A judged field changes no strap (R1, R179). -/
theorem judgeField_straps (f : Field) (s : State) : (judgeField f s).straps = s.straps := by
  unfold judgeField
  dsimp only
  repeat' split
  all_goals simp [runCommand_straps]

theorem onFrame_straps {act : State → State} (hact : ∀ s, (act s).straps = s.straps) (s : State) :
    (onFrame act s).straps = s.straps := by
  simp [onFrame, hact]

/-- A service command's row runs the command where a frame can arrive (R179; log 5). -/
theorem exec_service {c : Instr} {us : List Nat} (he : encodeFrame c = some us) (s : State) :
    ∃ dt, exec c s = .next (onFrame (runCommand c) (begin dt s)) := by
  cases c
  case setGeometry | setParameters | loadZone | clearZone | setLadderHeader | loadRung | clearLadder | setHead
      | startSweep | setSweepStop | abortSweep | queueSector | releaseEntry | importPage | exportPage | readMap
      | readQueue | readHealth | readLog | clearLog | readLadder | readZones | activate | captiveOn | captiveOff
      | passivate => exact ⟨_, rfl⟩
  all_goals cases he

/-- No command but POWER_UP changes a strap (R1). -/
theorem exec_straps {c : Instr} (s : State) (hp : isPowerUp c = false) :
    LeadsTo (fun t => t.straps = s.straps) (exec c s) := by
  cases he : encodeFrame c with
  | some us =>
    obtain ⟨dt, h⟩ := exec_service he s
    simp [h, onFrame_straps (runCommand_straps c)]
  | none =>
    cases hf : carriesField c with
    | false => exact fun t ht => (exec_keepsSettings s hp hf he t ht).1
    | true =>
      cases c
      case writeFieldFull =>
        dsimp only [exec, execWriteFieldFull]
        repeat' split
        all_goals simp [judgeField_straps]
      case commandFrameRefused =>
        simp [exec, execCommandFrameRefused, onFrame_straps fun t => judgeField_straps _ t]
      all_goals cases hf

/-- Settles O23: the straps over every command, the settings over the commands that carry no frame. -/
theorem onlyServiceChangesSettings : Obligations.OnlyServiceChangesSettings := by
  intro c s t h hp
  refine ⟨exec_straps s hp t h, fun hf he => ?_⟩
  obtain ⟨-, hsvc, htables, hstaging⟩ := exec_keepsSettings s hp hf he t h
  exact ⟨hsvc, htables, hstaging⟩

end Sys2Proof.Machine
end

section
/-!
PROOFS. What a command's beginning leaves as it is, and the marks (R12, R17, R26, R128, R183).
-/

namespace Sys2Proof.Machine

/-- Time passing before a command moves the clock and the limiter's two counters; nothing is driven yet. -/
@[simp] theorem begin_keeps (dt : Nat) (s : State) :
    (begin dt s).clock = s.clock + dt ∧ (begin dt s).straps = s.straps ∧ (begin dt s).svc = s.svc ∧
    (begin dt s).ctl = s.ctl ∧ (begin dt s).map = s.map ∧ (begin dt s).seq = s.seq ∧ (begin dt s).eng = s.eng ∧
    (begin dt s).tables = s.tables ∧ (begin dt s).sweep = s.sweep ∧ (begin dt s).heads = s.heads ∧
    (begin dt s).log = s.log ∧ (begin dt s).out = [] ∧ (begin dt s).pending = s.pending := by
  obtain ⟨w, i, h⟩ := begin_changes dt s
  simp [h]

/-- Of the drive port, a command's beginning moves the work counter and the idle timer alone. -/
@[simp] theorem begin_drv (dt : Nat) (s : State) :
    (begin dt s).drv.lines = s.drv.lines ∧ (begin dt s).drv.readGate = s.drv.readGate ∧
    (begin dt s).drv.writeGate = s.drv.writeGate ∧ (begin dt s).drv.record = s.drv.record ∧
    (begin dt s).drv.condition = s.drv.condition ∧ (begin dt s).drv.period = s.drv.period ∧
    (begin dt s).drv.lastIndex = s.drv.lastIndex ∧ (begin dt s).drv.indexChain = s.drv.indexChain ∧
    (begin dt s).drv.indexCount = s.drv.indexCount ∧ (begin dt s).drv.clearArmed = s.drv.clearArmed ∧
    (begin dt s).drv.lastRelayed = s.drv.lastRelayed ∧ (begin dt s).drv.genNext = s.drv.genNext ∧
    (begin dt s).drv.genPeriod = s.drv.genPeriod ∧ (begin dt s).drv.holder = s.drv.holder ∧
    (begin dt s).drv.passOn = s.drv.passOn ∧ (begin dt s).drv.step = s.drv.step ∧
    (begin dt s).drv.travel = s.drv.travel ∧ (begin dt s).drv.episode = s.drv.episode ∧
    (begin dt s).drv.heldOrders = s.drv.heldOrders ∧ (begin dt s).drv.quietDue = s.drv.quietDue ∧
    (begin dt s).drv.capture = s.drv.capture ∧ (begin dt s).drv.resting = s.drv.resting ∧
    (begin dt s).drv.restStart = s.drv.restStart := by
  obtain ⟨w, i, h⟩ := begin_changes dt s
  simp [h]

/-- A timer's expiry begins as a command does, at its due instant (log 2). -/
theorem beginAt_eq_begin (t : Nat) (s : State) : beginAt t s = begin (t - s.clock) s := rfl

/-! ### The marks -/

/-- The read data lines are open to a live read in transfer that no device party's drive serves (R16, R17). -/
theorem readPathOpen_iff (s : State) :
    readPathOpen s = true ↔ (s.ctl.op.any fun o => decide (o.kind = .liveRead ∧ o.phase = .transferring)) = true ∧
      s.drv.holder ≠ .recovery ∧ s.drv.holder ≠ .sweep := by
  unfold readPathOpen
  cases s.drv.holder <;> cases s.ctl.op <;> simp [Holder.isDevice]

theorem relayMatch_live {o : Op} {s : State} (ho : s.ctl.op = some o) (hp : o.phase = .awaitingMatch)
    (hk : o.kind = .liveRead ∨ o.kind = .liveWrite) :
    relayMatch s = emit .matchPulse { s with ctl.op := some { o with phase := .awaitingGate } } := by
  simp [relayMatch, ho, hp, hk]

/-- The status frame does not look at the clock or the limiter's counters (R208). -/
theorem statusUnits_begin (dt : Nat) (s : State) : statusUnits (begin dt s) = statusUnits s := by
  simp [statusUnits, activeJob, headJob, freeSlots, slotsInUse, slotsClaimed]

/-- The active job is the head of the queue, unless it is WAITING (R82). -/
theorem activeJob_eq (s : State) :
    activeJob s = (s.seq.queue.head?.filter fun j => decide (j.state ≠ .waiting)).map Job.addr := by
  unfold activeJob headJob
  cases s.seq.queue.head? with
  | none => rfl
  | some j => by_cases h : j.state = .waiting <;> simp [Option.filter, h]

/-- Settles O54: each mark's command, and the status frame unit by unit. -/
theorem marksArrive : Obligations.MarksArrive := by
  intro dt due data clock o c s b
  refine ⟨?lines, fun hc hparty hm => ?gate, fun ho hp => ⟨fun hk hc hparty hm => ?liveRead, fun hk hc => ?liveWrite⟩,
    fun ho hdue => ?generated, fun hdue => ?index⟩
  case lines =>
    rw [relayedReadLines]
    exact if_congr (readPathOpen_iff s) rfl rfl
  case gate =>
    simp only [exec, execDriveMatch, begin_drv, hc, hm]
    cases h : c.party <;> simp_all [emit, b]
  case liveRead =>
    simp only [exec, execDriveMatch, begin_drv, hc, hm, hparty]
    rw [relayMatch_live (o := o) (by simpa using ho) hp (.inl hk)]
    simp [emit, b]
  case liveWrite =>
    simp only [exec, execDriveMatch, begin_drv, hc]
    rw [relayMatch_live (o := o) (by simpa using ho) hp (.inr hk)]
    simp [emit, b]
  case generated =>
    intro now pair address head status
    have hstatus : statusUnits now = status := by
      have hreport : reportUnits s.ctl.report = address (s.ctl.report.map WithholdReport.addr) ++ _ :=
        show _ = _ ++ match s.ctl.report with
          | none => [0, 0xFFF]
          | some r => [r.kind.code, r.duration] by cases s.ctl.report <;> rfl
      rw [show statusUnits now = statusUnits s from statusUnits_begin _ s, statusUnits, activeJob_eq, hreport,
        ← List.append_assoc]
      rfl
    simp only [exec, execGeneratedMatch, ho, hdue, matched, emit, statusFrame]
    rw [hstatus]
    simp [now, beginAt_eq_begin]
  case index =>
    simp [exec, execGeneratedIndex, hdue, emit, beginAt_eq_begin]

end Sys2Proof.Machine
end

section
/-!
PROOFS. When nothing is due at once, and how writes end (R14, R16, R30, R34, R41).
-/

namespace Sys2Proof.Machine

/-! ### When nothing is due -/

/-- The next act is a matter of the drive port, the mode and parameters, the head job and its rung, the sweep's state and
pass, and what the controller waits for: nothing else of the state can bring one about. -/
theorem nextAct_congr {s t : State} (hdrv : t.drv = s.drv) (hsvc : t.svc = s.svc) (hhead : headJob t = headJob s)
    (hrung : t.seq.workingRung = s.seq.workingRung) (hstate : t.sweep.state = s.sweep.state)
    (hpass : t.sweep.pass = s.sweep.pass) (hw : t.ctl.withhold = s.ctl.withhold)
    (ha : awaitsDrive t = awaitsDrive s) : nextAct t = nextAct s := by
  simp only [nextAct, restMeetsWithhold, limitEnds, restDue, workDuration, restPoint, inRetry, sweepYields, headMayRun,
    deviceMayWork, isPassive, holderAct, sweepMayRun, hdrv, hsvc, hhead, hrung, hstate, hpass, hw, ha]
  rfl

/-- While the controller holds the drive, queue and sweep bring about no act. -/
theorem nextAct_congr_controller {s t : State} (hh : s.drv.holder = .controller) (hdrv : t.drv = s.drv)
    (hsvc : t.svc = s.svc) (hw : t.ctl.withhold = s.ctl.withhold) (ha : awaitsDrive t = awaitsDrive s) :
    nextAct t = nextAct s := by
  simp only [nextAct, restMeetsWithhold, limitEnds, restDue, workDuration, restPoint, inRetry, sweepYields, holderAct,
    hdrv, hsvc, hw, ha, hh]
  rfl

theorem nothingDue_of_eq {s t : State} (h : NothingDue s) (e : nextAct t = nextAct s) : NothingDue t := e.trans h

/-- With the controller holding the drive for nothing it still waits for, nothing is due. -/
theorem nothingDue_of_controllerHas {s : State} (h : ControllerHas s) (ha : awaitsDrive s = false) : NothingDue s := by
  obtain ⟨hw, hstep, htravel, hepisode, hheld, hpass, hholder, hrest⟩ := h
  simp [NothingDue, nextAct, restMeetsWithhold, limitEnds, sweepYields, holderAct, hw, hstep, htravel, hheld, hpass, hholder,
    hrest, ha]

theorem headMayRun_of_empty {s : State} (h : s.seq.queue = []) : headMayRun s = false := by
  simp [headMayRun, headJob, h]

theorem sweepMayRun_of_idle {s : State} (h : s.sweep.state = .idle) : sweepMayRun s = false := by
  simp [sweepMayRun, h]

/-- With the drive held by no one and neither the head job nor the sweep to be granted it, nothing is due. -/
theorem nothingDue_of_nobody {s : State} (hholder : s.drv.holder = .nobody) (hpass : s.drv.passOn = .stays)
    (hw : s.ctl.withhold = none) (hrest : restDue s = false) (hjob : headMayRun s = false)
    (hsweep : sweepMayRun s = false) : NothingDue s := by
  simp [NothingDue, nextAct, restMeetsWithhold, limitEnds, sweepYields, holderAct, hholder, hpass, hw, hrest, hjob,
    hsweep]

/-- A command that leaves a state with nothing due ends in that state. -/
theorem settle_eq {s t : State} (h : s = t) (still : NothingDue t) : settle s = t := by
  subst h
  exact settle_still still

theorem awaitsDrive_none {s : State} (h : s.ctl.op = none) : awaitsDrive s = false := by simp [awaitsDrive, h]

/-- A served or service operation never waits for the drive (R29, R31). -/
theorem awaitsDrive_of_kind {s : State} {o : Op} (h : s.ctl.op = some o)
    (hk : o.kind ≠ .liveRead ∧ o.kind ≠ .liveWrite ∧ o.kind ≠ .withheld) : awaitsDrive s = false := by
  simp [awaitsDrive, h, hk]

/-! ### Gates, re-seats and the quiet interval -/

/-- The gate is low afterwards, and its fall is driven if it was raised (R12). -/
theorem lowerReadGate_eq (s : State) : lowerReadGate s = { s with
    drv.readGate := false
    out := s.out ++ if s.drv.readGate then [.readGate false] else [] } := by
  cases h : s.drv.readGate with
  | true => simp [lowerReadGate, emit, h]
  | false => simp [lowerReadGate, h]; rw [← h]

/-- The gate is low afterwards, and its fall is driven if it was raised (R34). -/
theorem lowerWriteGate_eq (s : State) : lowerWriteGate s = { s with
    drv.writeGate := false
    out := s.out ++ if s.drv.writeGate then [.writeGate false] else [] } := by
  cases h : s.drv.writeGate with
  | true => simp [lowerWriteGate, emit, h]
  | false => simp [lowerWriteGate, h]; rw [← h]

/-- A positioning that is a re-seat, if there is one, goes no further (R122). -/
theorem dropReseat_eq {s : State}
    (h : ∀ t, s.drv.travel = some t → t.purpose = .reseatLive ∨ t.purpose = .reseatWithhold) :
    dropReseat s = { s with drv.travel := none } := by
  cases ht : s.drv.travel with
  | none => simp only [dropReseat, ht]; rw [← ht]
  | some t => simp [dropReseat, ht, h t ht]

/-- The end of a use of the drive that the controller holds starts the quiet interval (R131). -/
theorem endUse_controller {s : State} (h : s.drv.holder = .controller) :
    endUse s = { s with drv.quietDue := some (s.clock + s.svc.params.quietInterval * 1000) } := by
  simp [endUse, h, Config.ms]

/-- A live use the controller holds the drive for ends: its re-seat goes no further, its quiet interval starts (R122,
R131). -/
theorem endUse_dropReseat {s : State} (hh : s.drv.holder = .controller)
    (ht : ∀ t, s.drv.travel = some t → t.purpose = .reseatLive ∨ t.purpose = .reseatWithhold) :
    endUse (dropReseat s) = { s with
      drv.travel := none
      drv.quietDue := some (s.clock + s.svc.params.quietInterval * 1000) } := by
  rw [dropReseat_eq ht]
  exact endUse_controller hh

/-! ### How writes end -/

theorem writePathOpen_eq {s : State} {o : Op} (h : s.ctl.op = some o) :
    writePathOpen s = decide (o.kind = .liveWrite ∧ o.phase = .transferring) := by
  simp [writePathOpen, h]

/-- Bits clocked outside a full field are driven on if the operation is a live write in transfer. -/
theorem passBits_eq {s : State} {o : Op} (h : s.ctl.op = some o) (bits : List Bool) :
    passBits bits s = { s with
      out := s.out ++ if o.kind = .liveWrite ∧ o.phase = .transferring ∧ bits ≠ [] then [.writeBits bits] else [] } := by
  rw [passBits, writePathOpen_eq h]
  by_cases hc : o.kind = .liveWrite ∧ o.phase = .transferring ∧ bits ≠ []
  · rw [if_pos hc, if_pos (by simpa [and_assoc] using hc), emit]
  · rw [if_neg hc, if_neg (by simpa [and_assoc] using hc), List.append_nil]

/-- A served write's end releases what it still claims (R41). -/
theorem endOperation_servedWrite {s : State} {o : Op} (h : s.ctl.op = some o) (hk : o.kind = .servedWrite) :
    endOperation s = { s with ctl.op := none, map.claim := none } := by
  simp [endOperation, h, hk, releaseClaim]

theorem endOperation_serviceWrite {s : State} {o : Op} (h : s.ctl.op = some o) (hk : o.kind = .serviceWrite) :
    endOperation s = { s with ctl.op := none } := by
  simp [endOperation, h, hk]

/-- A live write's end lowers its gate on the drive, takes back its re-seat and starts the quiet interval (R34, R131). -/
theorem endOperation_liveWrite {s : State} {o : Op} (h : s.ctl.op = some o) (hk : o.kind = .liveWrite)
    (hh : s.drv.holder = .controller) (ht : (s.drv.travel.all fun t => decide (t.purpose = .reseatLive)) = true) :
    endOperation s = { s with
      ctl.op := none
      drv.travel := none
      drv.writeGate := false
      drv.quietDue := some (s.clock + s.svc.params.quietInterval * 1000)
      out := s.out ++ if s.drv.writeGate then [.writeGate false] else [] } := by
  have hdrop : ∀ t, s.drv.travel = some t → t.purpose = .reseatLive ∨ t.purpose = .reseatWithhold := fun t e => by
    rw [e] at ht
    exact .inl (by simpa using ht)
  simp only [endOperation, h, hk]
  rw [lowerWriteGate_eq]
  exact endUse_dropReseat hh hdrop

/-- With its gate fallen, a command that ended the operation finds nothing due if nothing was due before (R15). -/
theorem settle_of_ended {s t : State} (h : NothingDue s) (hs : awaitsDrive s = false) (ht : t.ctl.op = none)
    (hdrv : t.drv = s.drv) (hsvc : t.svc = s.svc) (hseq : t.seq = s.seq) (hsweep : t.sweep = s.sweep)
    (hw : t.ctl.withhold = s.ctl.withhold) : settle t = t :=
  settle_still ((nextAct_congr hdrv hsvc (by rw [headJob, hseq, headJob]) (by rw [hseq]) (by rw [hsweep])
    (by rw [hsweep]) hw (by rw [hs, awaitsDrive_none ht])).trans h)

theorem writing_eq {s : State} {o : Op} (h : s.ctl.op = some o) (hp : o.phase = .transferring)
    (hf : o.fieldEnded = false) (hk : o.kind = .servedWrite ∨ o.kind = .serviceWrite ∨ o.kind = .liveWrite) :
    writing s = some o := by
  simp [writing, h, hp, hf, hk]

/-- WRITE GATE's fall ends a write that is in transfer or was refused (R14, R30). -/
theorem exec_writeGateFalls {s : State} {o : Op} (dt : Nat) (bits : List Bool) (h : s.ctl.op = some o)
    (hk : o.kind.isRead = false) (hp : o.phase = .transferring ∨ o.gateRefused = true) :
    exec (.writeGateFalls ⟨dt, bits⟩) s = .next (settle (endOperation (passBits bits (begin dt s)))) := by
  have hb : (begin dt s).ctl.op = some o := by simpa using h
  simp [exec, execWriteGateFalls, passBits_eq hb, h, hk, hp]

/-- Settles O37: each end of a write by what its gate's fall or its clock's stop ends. -/
theorem writesEnd : Obligations.WritesEnd := by
  intro dt bits o s b passed ho
  have hb : b.ctl.op = some o := by simpa [b] using ho
  refine ⟨fun hk hp still => ?served, fun hk hp still => ?service, fun hk hp has hc => ?live, fun hk hp hf => ?clock,
    fun hk hp => ?lines⟩
  case served =>
    have hpass : passBits bits b = b := by simp [passBits_eq hb, hk]
    rw [exec_writeGateFalls dt bits ho (by rw [hk]; rfl) hp, show begin dt s = b from rfl, hpass,
      endOperation_servedWrite hb hk, settle_of_ended still (awaitsDrive_of_kind hb (by simp [hk]))] <;> rfl
  case service =>
    have hpass : passBits bits b = b := by simp [passBits_eq hb, hk]
    rw [exec_writeGateFalls dt bits ho (by rw [hk]; rfl) (.inl hp), show begin dt s = b from rfl, hpass,
      endOperation_serviceWrite hb hk, settle_of_ended still (awaitsDrive_of_kind hb (by simp [hk]))] <;> rfl
  case live =>
    have hpass : passBits bits b = { b with out := passed } := by simp [passBits_eq hb, hk, hp, passed, b]
    obtain ⟨hw, hstep, htravel, hepisode, hheld, hstays, hholder, hrest⟩ := has
    rw [exec_writeGateFalls dt bits ho (by rw [hk]; rfl) (.inl hp), show begin dt s = b from rfl, hpass]
    refine congrArg Host.Outcome.next (settle_eq ?_
      (nothingDue_of_controllerHas ⟨hw, hstep, htravel, hepisode, hheld, hstays, hholder, hrest⟩ (awaitsDrive_none rfl)))
    rw [endOperation_liveWrite (s := { b with out := passed }) hb hk hholder (by simp [htravel])]
    simp [show s.drv.travel = none by simpa [b] using htravel, b]
  case clock =>
    have hpass : passBits bits b = { b with out := passed } := by simp [passBits_eq hb, hp, passed, b]
    simp only [exec, execWriteClockTimeout]
    rw [show begin dt s = b from rfl, hpass, writing_eq (s := { b with out := passed }) hb hp hf hk]
    simp [releaseClaim, endField, hb]
  case lines =>
    simp [driveWriteLines, writePathOpen_eq ho, hk, hp]

end Sys2Proof.Machine
end

section
/-!
PROOFS. The map, the store and the queue under the operations that settle a sector and take its job away (R38, R40, R70,
R80), and the giving up of the drive (R12, R134), each with the state it leaves written out.
-/

namespace Sys2Proof.Machine

/-! ### Fields taken in -/

theorem takeWords_length (b n : Nat) (ws : List Nat) : (takeWords b n ws).length = n := by
  induction n generalizing ws with
  | zero => rfl
  | succ n ih => cases ws <;> simp [takeWords, ih]

theorem takeWords_lt {b n : Nat} {ws : List Nat} : ∀ w ∈ takeWords b n ws, w < 2 ^ b := by
  have hpos := Nat.two_pow_pos b
  induction n generalizing ws with
  | zero => simp [takeWords]
  | succ n ih =>
    cases ws with
    | nil => simpa [takeWords] using ih
    | cons w ws => simpa [takeWords, Nat.mod_lt _ hpos] using ih

/-! ### Slots -/

/-- A store with one image put into it: the slot reads that image, every other slot as before (R7, R40). -/
theorem readSlot_putSlot {s t : State} {k : Nat} {f : Field} (hwf : Store.wf s.map.store = true)
    (hstraps : t.straps = s.straps) (hstore : t.map.store = putSlot k (packImage s.straps.bits f) s.map.store)
    (hlen : f.length = s.straps.data + 1) (hf : ∀ w ∈ f, w < 2 ^ s.straps.bits) :
    readSlot t k = f ∧ ∀ n, n ≠ k → readSlot t n = readSlot s n := by
  constructor
  · simp only [readSlot, slotBytes, hstraps, hstore, find_putSlot _ _ _ _ hwf, if_true]
    rw [← hlen, unpackImage_packImage hf]
  · intro n hn
    simp only [readSlot, slotBytes, hstraps, hstore, find_putSlot _ _ _ _ hwf, if_neg hn]

/-! ### Entries -/

/-- The entry of an address in a list of entries (R38). -/
def findEntry (es : List Entry) (a : Addr) : Option Entry := es.find? fun e => decide (e.addr = a)

theorem entryOf_eq (s : State) (a : Addr) : entryOf s a = findEntry s.map.entries a := rfl

theorem addr_of_findEntry {es : List Entry} {a : Addr} {e : Entry} (h : findEntry es a = some e) : e.addr = a := by
  simpa using List.find?_some h

/-- The entries with one sector's body replaced (R39). -/
def withBody (a : Addr) (b : EntryBody) (es : List Entry) : List Entry :=
  es.map fun e => if e.addr = a then { e with body := b } else e

theorem setBody_eq (a : Addr) (b : EntryBody) (s : State) :
    setBody a b s = { s with map.entries := withBody a b s.map.entries } := rfl

/-- A replaced body is found at its sector, and every other sector's entry is as before. -/
theorem findEntry_withBody (a x : Addr) (b : EntryBody) (es : List Entry) :
    findEntry (withBody a b es) x =
      if x = a then (findEntry es a).map fun e => { e with body := b } else findEntry es x := by
  induction es with
  | nil => simp [findEntry, withBody]
  | cons e es ih =>
    simp only [findEntry, withBody, List.map_cons, List.find?_cons] at ih ⊢
    by_cases hx : x = a
    · subst hx
      by_cases he : e.addr = x <;> simp [he] at ih ⊢
      exact ih
    · by_cases he : e.addr = a
      · have hex : a ≠ x := fun h => hx h.symm
        simp [he, hex, hx] at ih ⊢
        exact ih
      · by_cases hex : e.addr = x <;> simp [he, hex, hx] at ih ⊢
        exact ih

/-- A new entry is found at its sector if the sector had none, and every other sector's entry is as before (R38). -/
theorem findEntry_insertEntry {e : Entry} {es : List Entry} (h : findEntry es e.addr = none) (x : Addr) :
    findEntry (insertEntry e es) x = if x = e.addr then some e else findEntry es x := by
  induction es with
  | nil =>
    by_cases hx : x = e.addr
    · simp [findEntry, insertEntry, hx]
    · have : e.addr ≠ x := fun h => hx h.symm
      simp [findEntry, insertEntry, hx, this]
  | cons y ys ih =>
    have hy : y.addr ≠ e.addr := fun hy => by simp [findEntry, hy] at h
    have hys : findEntry ys e.addr = none := by simpa [findEntry, hy] using h
    have ih := ih hys
    unfold findEntry at ih ⊢
    rw [insertEntry]
    by_cases hx : x = e.addr
    · split
      · simp [hx]
      · rw [List.find?_cons]
        simp only [hx, hy, decide_false]
        simpa [hx] using ih
    · have hne : e.addr ≠ x := fun h => hx h.symm
      split
      · simp [hne]
      · rw [List.find?_cons, List.find?_cons, ih, if_neg hx]

theorem findEntry_withBody_same {es : List Entry} {a : Addr} {e : Entry} (h : findEntry es a = some e)
    (b : EntryBody) : findEntry (withBody a b es) a = some { e with body := b } := by
  rw [findEntry_withBody, if_pos rfl, h, Option.map_some]

theorem findEntry_withBody_other {a x : Addr} (h : x ≠ a) (b : EntryBody) (es : List Entry) :
    findEntry (withBody a b es) x = findEntry es x := by
  rw [findEntry_withBody, if_neg h]

/-- A new entry given its body at once: found at its sector, and every other sector's entry is as before. -/
theorem findEntry_withBody_insertEntry {es : List Entry} {a : Addr} (h : findEntry es a = none) (org : Origin)
    (b b' : EntryBody) (x : Addr) :
    findEntry (withBody a b' (insertEntry ⟨a, org, b⟩ es)) x = if x = a then some ⟨a, org, b'⟩ else findEntry es x := by
  rw [findEntry_withBody, findEntry_insertEntry (e := ⟨a, org, b⟩) h, findEntry_insertEntry (e := ⟨a, org, b⟩) h]
  split <;> simp

/-- A sector's image goes into the slot its claim holds, and the claim ends (R40, R41, R43). -/
theorem settleInNewSlot_claimed {s : State} {a : Addr} {x : Bool} {k : Nat} (h : s.map.claim = some ⟨a, x, some k⟩)
    (kind : Settled) (f : Field) (n : Nat) (w : Option Nat) :
    settleInNewSlot a kind f n w s = { s with
      map.entries := withBody a (.settled kind n w k) s.map.entries
      map.store := putSlot k (packImage s.straps.bits f) s.map.store
      map.claim := some ⟨a, x, none⟩ } := by
  simp [settleInNewSlot, slotFor, passClaimSlot, h, setBody, writeSlot, withBody]

theorem settled_of_slot {b : EntryBody} {k : Nat} (h : b.slot? = some k) : ∃ kind n w, b = .settled kind n w k := by
  cases b with
  | pending => cases h
  | settled kind n w j => exact ⟨kind, n, w, by rw [Option.some.inj h]⟩

/-! ### Jobs -/

theorem addr_of_jobOf {s : State} {a : Addr} {j : Job} (h : jobOf s a = some j) : j.addr = a := by
  simpa using List.find?_some h

theorem entryCounts_settled {s : State} {e : Entry} {kind : Settled} {n : Nat} {w : Option Nat} {k : Nat}
    (h : e.body = .settled kind n w k) : entryCounts s e = (n, w) := by
  simp [entryCounts, h]

/-- A PENDING entry's counts are its job's (R39). -/
theorem entryCounts_pending {s : State} {e : Entry} {j : Job} (h : e.body = .pending) (hj : jobOf s e.addr = some j) :
    entryCounts s e = (j.readsSpent, j.lastWeak) := by
  simp [entryCounts, h, hj]

/-- The votes of a sector marked for discard (R116). -/
def markedVotes (a : Addr) (g : Engine) : Engine :=
  ⟨g.inFlight.map fun v => if v.owner = a then { v with discard := true } else v,
    g.waiting.map fun v => if v.owner = a then { v with discard := true } else v⟩

theorem markDiscard_eq (a : Addr) (s : State) : markDiscard a s = { s with eng := markedVotes a s.eng } := rfl

theorem markedVotes_twice (a : Addr) (g : Engine) : markedVotes a (markedVotes a g) = markedVotes a g := by
  simp only [markedVotes, Option.map_map]
  congr 2 <;> · funext v; simp only [Function.comp]; split <;> simp_all

/-- A notice to a sweep that is not blocked clears a sweeping one's cause (R157). -/
theorem noticeSweep_eq {s : State} (h : s.sweep.state ≠ .blocked) :
    noticeSweep s =
      { s with sweep.cause := if s.sweep.state = .sweeping then none else s.sweep.cause } := by
  unfold noticeSweep
  split <;> simp_all

theorem head?_withoutJob {a : Addr} {q : List Job} (h : q.head?.map Job.addr ≠ some a) :
    (withoutJob a q).head? = q.head? := by
  cases q with
  | nil => rfl
  | cons j js =>
    have : j.addr ≠ a := by simpa using h
    simp [withoutJob, this]

theorem withoutJob_of_not_mem {a : Addr} {q : List Job} (h : ∀ j ∈ q, j.addr ≠ a) : withoutJob a q = q := by
  simpa [withoutJob] using h

/-- A job that is not first leaves the queue without a head change (R70). -/
theorem reorder_withoutJob_behind {s : State} {a : Addr} (h : (headJob s).map Job.addr ≠ some a) :
    reorder (withoutJob a) s = { s with seq.queue := withoutJob a s.seq.queue } := by
  have hhead : (withoutJob a s.seq.queue).head? = s.seq.queue.head? := head?_withoutJob h
  unfold reorder
  dsimp only
  cases hq : headJob s with
  | none => rfl
  | some old => simp [headJob, hhead, show s.seq.queue.head? = some old from hq]

/-- The first job's leaving the queue (R70): its copies, vote result and working rung are emptied, a VOTING one's votes
are marked, and one that holds the drive gives it up. -/
theorem reorder_withoutJob_first {s : State} {j : Job} {rest : List Job} (hq : s.seq.queue = j :: rest)
    (hrest : ∀ x ∈ rest, x.addr ≠ j.addr) :
    reorder (withoutJob j.addr) s =
      if j.state ≠ .waiting ∧ s.drv.holder = .recovery then
        giveUp { s with
          seq := ⟨rest, [], none, none⟩
          eng := if j.state = .voting then markedVotes j.addr s.eng else s.eng }
      else { s with
        seq := ⟨rest, [], none, none⟩
        eng := if j.state = .voting then markedVotes j.addr s.eng else s.eng } := by
  have hleft : withoutJob j.addr (j :: rest) = rest := by
    have : withoutJob j.addr (j :: rest) = withoutJob j.addr rest := by simp [withoutJob]
    rw [this, withoutJob_of_not_mem hrest]
  have hsame : (rest.map fun x => if x.addr = j.addr then { x with state := .waiting, readsDone := 0 } else x) = rest :=
    (List.map_congr_left (g := id) fun x hx => if_neg (hrest x hx)).trans (List.map_id _)
  have hnew : rest.head?.map Job.addr ≠ some j.addr := by
    cases rest with
    | nil => simp
    | cons x xs => simpa using hrest x (by simp)
  unfold reorder
  simp only [headJob, hq, List.head?_cons, hleft, hnew, if_false, leaveHead, emptyHeadWork, updateJob, hsame,
    markDiscard_eq]
  split <;> rfl

/-- A notice leaves an IDLE sweep as it is. -/
theorem noticed_idle {w : Sweep} (h : w.state = .idle) :
    { w with cause := if w.state = .sweeping then none else w.cause } = w := by
  rw [if_neg (by simp [h])]

/-! ### Giving up the drive -/

/-- A device party's capture is in flight (R12). -/
def deviceCapture (s : State) : Bool := s.drv.capture.any fun c => decide (c.party ≠ .live)

/-- A capture in flight that is no live one is a device party's. -/
theorem deviceCapture_eq {s : State} (h : (s.drv.capture.all fun c => decide (c.party ≠ .live)) = true) :
    deviceCapture s = s.drv.capture.isSome := by
  unfold deviceCapture
  cases hc : s.drv.capture with
  | none => rfl
  | some c => simpa [hc] using h

/-- A party's work dropped: its positioning, its episode, and its capture with the gate raised for it (R12, R132). -/
theorem dropWork_eq (s : State) : dropWork s = { s with
    drv.travel := none
    drv.episode := none
    drv.capture := if deviceCapture s then none else s.drv.capture
    drv.readGate := s.drv.readGate && !deviceCapture s
    out := s.out ++ if s.drv.readGate && deviceCapture s then [.readGate false] else [] } := by
  cases hc : s.drv.capture with
  | none => simp [dropWork, abandonCapture, deviceCapture, hc]
  | some c =>
    by_cases hp : c.party = .live
    · simp [dropWork, abandonCapture, deviceCapture, hc, hp]
    · simp [dropWork, abandonCapture, deviceCapture, hc, hp, lowerReadGate_eq]

/-- The holder becomes NONE, and with no rest due nothing else changes (R129, R143). -/
theorem setHolder_nobody {s : State} (h : restDue s = false) :
    setHolder .nobody s = { s with drv.holder := .nobody } := by
  simp [setHolder, h, Holder.isDevice]

/-- A party that holds the drive with no step in flight and no rest due gives it up at once, its capture with it (R134). -/
theorem giveUp_eq {s : State} (hh : s.drv.holder.isDevice = true) (hstep : s.drv.step = none)
    (hrest : restDue s = false) (hcapture : (s.drv.capture.all fun c => decide (c.party ≠ .live)) = true) :
    giveUp s = { s with
      drv.holder := .nobody
      drv.travel := none
      drv.episode := none
      drv.capture := none
      drv.readGate := s.drv.readGate && s.drv.capture.isNone
      out := s.out ++ if s.drv.readGate && s.drv.capture.isSome then [.readGate false] else [] } := by
  have hnone : (if s.drv.capture.isSome then none else s.drv.capture) = none := by cases s.drv.capture <;> rfl
  simp only [giveUp, hh, if_true, dropWork_eq, hstep, deviceCapture_eq hcapture, hnone, Option.not_isSome]
  exact setHolder_nobody hrest

/-! ### A cancelled job -/

/-- Cancelling a job takes it from the queue, its votes marked, with a notice to the sweep (R80). -/
theorem cancelJob_eq {s : State} {a : Addr} {j : Job} (hj : jobOf s a = some j) :
    cancelJob a s = noticeSweep (reorder (withoutJob a) { s with eng := markedVotes a s.eng }) := by
  simp [cancelJob, hj, removeJob, markDiscard_eq]

theorem cancelJob_behind {s : State} {a : Addr} {j : Job} (hj : jobOf s a = some j)
    (hh : (headJob s).map Job.addr ≠ some a) (hs : s.sweep.state ≠ .blocked) :
    cancelJob a s = { s with
      seq.queue := withoutJob a s.seq.queue
      eng := markedVotes a s.eng
      sweep.cause := if s.sweep.state = .sweeping then none else s.sweep.cause } := by
  rw [cancelJob_eq hj, reorder_withoutJob_behind (s := { s with eng := markedVotes a s.eng }) hh]
  exact noticeSweep_eq hs

/-- The first job cancelled without the drive in its hands. -/
theorem cancelJob_first {s : State} {a : Addr} {j : Job} {rest : List Job} (hq : s.seq.queue = j :: rest)
    (ha : j.addr = a) (hrest : ∀ x ∈ rest, x.addr ≠ a) (hh : s.drv.holder ≠ .recovery)
    (hs : s.sweep.state ≠ .blocked) :
    cancelJob a s = { s with
      seq := ⟨rest, [], none, none⟩
      eng := markedVotes a s.eng
      sweep.cause := if s.sweep.state = .sweeping then none else s.sweep.cause } := by
  subst ha
  rw [cancelJob_eq (j := j) (by simp [jobOf, hq]), reorder_withoutJob_first (s := { s with eng := markedVotes j.addr s.eng }) hq hrest,
    if_neg fun h => hh h.2]
  simp only [markedVotes_twice, ite_self]
  exact noticeSweep_eq hs

/-- The first job cancelled with the drive in its hands, no step in flight and no rest due: it gives up the drive. -/
theorem cancelJob_first_holding {s : State} {a : Addr} {j : Job} {rest : List Job} (hq : s.seq.queue = j :: rest)
    (ha : j.addr = a) (hrest : ∀ x ∈ rest, x.addr ≠ a) (hj : j.state ≠ .waiting) (hh : s.drv.holder = .recovery)
    (hstep : s.drv.step = none) (hdue : restDue s = false)
    (hcapture : (s.drv.capture.all fun c => decide (c.party ≠ .live)) = true) (hs : s.sweep.state ≠ .blocked) :
    cancelJob a s = { s with
      seq := ⟨rest, [], none, none⟩
      eng := markedVotes a s.eng
      sweep.cause := if s.sweep.state = .sweeping then none else s.sweep.cause
      drv.holder := .nobody
      drv.travel := none
      drv.episode := none
      drv.capture := none
      drv.readGate := s.drv.readGate && s.drv.capture.isNone
      out := s.out ++ if s.drv.readGate && s.drv.capture.isSome then [.readGate false] else [] } := by
  subst ha
  rw [cancelJob_eq (j := j) (by simp [jobOf, hq]), reorder_withoutJob_first (s := { s with eng := markedVotes j.addr s.eng }) hq hrest,
    if_pos ⟨hj, hh⟩]
  simp only [markedVotes_twice, ite_self]
  refine (congrArg noticeSweep (giveUp_eq ?_ ?_ ?_ ?_)).trans (noticeSweep_eq ?_)
  · simp [hh, Holder.isDevice]
  · exact hstep
  · exact hdue
  · exact hcapture
  · exact hs

end Sys2Proof.Machine
end

section
/-!
PROOFS. A full written field is absorbed (R14, R49, R80).
-/

namespace Sys2Proof.Machine

/-! ### OVERLAY, by the sector's entry -/

theorem overlay_unmapped {s : State} {a : Addr} {x : Bool} {k : Nat} (f : Field) (he : entryOf s a = none)
    (hc : s.map.claim = some ⟨a, x, some k⟩) : overlay a f s = { s with
      map.entries := withBody a (.settled .overlay 0 none k) (insertEntry ⟨a, .controller, .pending⟩ s.map.entries)
      map.store := putSlot k (packImage s.straps.bits f) s.map.store
      map.claim := some ⟨a, x, none⟩ } := by
  simp only [overlay, he]
  exact settleInNewSlot_claimed (s := addEntry ⟨a, .controller, .pending⟩ s) hc _ _ _ _

theorem overlay_settled {s : State} {a : Addr} {e : Entry} {kind : Settled} {n : Nat} {w : Option Nat} {k : Nat}
    (f : Field) (he : entryOf s a = some e) (hb : e.body = .settled kind n w k) : overlay a f s = { s with
      map.entries := withBody a (.settled .overlay n w k) s.map.entries
      map.store := putSlot k (packImage s.straps.bits f) s.map.store } := by
  simp only [overlay, he, hb]
  rfl

/-- An OVERLAY over a PENDING entry takes the claimed slot and cancels the job, whose counts the entry keeps. -/
theorem overlay_pending {s : State} {a : Addr} {e : Entry} {j : Job} {x : Bool} {k : Nat} (f : Field)
    (he : entryOf s a = some e) (hb : e.body = .pending) (hj : jobOf s a = some j)
    (hc : s.map.claim = some ⟨a, x, some k⟩) : overlay a f s = cancelJob a { s with
      map.entries := withBody a (.settled .overlay j.readsSpent j.lastWeak k) s.map.entries
      map.store := putSlot k (packImage s.straps.bits f) s.map.store
      map.claim := some ⟨a, x, none⟩ } := by
  have ha : e.addr = a := addr_of_findEntry he
  simp only [overlay, he, hb, entryCounts_pending hb (ha ▸ hj)]
  exact congrArg (cancelJob a) (settleInNewSlot_claimed hc _ _ _ _)

/-! ### WRITE_FIELD_FULL, by the operation's kind -/

theorem endField_eq {s : State} {o : Op} (h : s.ctl.op = some o) :
    endField s = { s with ctl.op := some { o with fieldEnded := true } } := by
  simp [endField, h]

section
variable {s : State} {o : Op} (dt : Nat) (field : List Nat) (h : s.ctl.op = some o) (hp : o.phase = .transferring)
  (hf : o.fieldEnded = false)
include h hp hf

theorem exec_writeFieldFull_servedWrite (hk : o.kind = .servedWrite) :
    exec (.writeFieldFull dt field) s = .next (settle (releaseClaim (overlay o.addr (takeField s.straps field)
      { begin dt s with ctl.op := some { o with fieldEnded := true } }))) := by
  have hb : (begin dt s).ctl.op = some o := by simpa using h
  simp only [exec, execWriteFieldFull, writing_eq hb hp hf (.inl hk), endField_eq hb, hk]
  simp

/-- A field written to a service sector other than sector 0 of head 0 has no effect but its own end (R31). -/
theorem exec_writeFieldFull_serviceWrite (hk : o.kind = .serviceWrite) (ha : ¬(o.addr.head = 0 ∧ o.addr.sec = 0)) :
    exec (.writeFieldFull dt field) s = .next { begin dt s with ctl.op := some { o with fieldEnded := true } } := by
  have hb : (begin dt s).ctl.op = some o := by simpa using h
  simp only [exec, execWriteFieldFull, writing_eq hb hp hf (.inr (.inl hk)), endField_eq hb, hk, ha, if_false]

/-- A field written on a live write goes to the drive (R34). -/
theorem exec_writeFieldFull_liveWrite (hk : o.kind = .liveWrite) :
    exec (.writeFieldFull dt field) s = .next { begin dt s with
      ctl.op := some { o with fieldEnded := true }, out := [.writeData (takeField s.straps field)] } := by
  have hb : (begin dt s).ctl.op = some o := by simpa using h
  simp only [exec, execWriteFieldFull, writing_eq hb hp hf (.inr (.inr hk)), endField_eq hb, hk]
  simp [emit]

end

/-- What an absorbed field leaves: the map with the image in its slot and no claim, and the given other blocks. -/
abbrev absorbed (k : Nat) (f : Field) (es : List Entry) (seq : Sequencer) (eng : Engine) (sweep : Sweep)
    (drv : DrivePort) (out : List Signal) (s : State) : State :=
  { s with
    map := ⟨es, putSlot k (packImage s.straps.bits f) s.map.store, none, s.map.staging⟩
    seq := seq, eng := eng, sweep := sweep, drv := drv, out := out }

/-- Settles O38: the overlay by the sector's entry, then the cancelled job by its place in the queue. -/
theorem fullWriteIsAbsorbed : Obligations.FullWriteIsAbsorbed := by
  intro dt k field o e j rest s
  obtain ⟨work, idle, hbegin⟩ := begin_changes dt s
  rw [hbegin]
  intro b ho hp hf a f ended marked absorbs
  have hlen : f.length = s.straps.data + 1 := takeWords_length _ _ _
  have hwords : ∀ w ∈ f, w < 2 ^ s.straps.bits := takeWords_lt
  refine ⟨fun hk still hwf => ?served, fun hk haddr => ?service, fun hk => ?live⟩
  case served =>
    have hexec : exec (.writeFieldFull dt field) s = .next (settle (releaseClaim (overlay a f ended))) := by
      rw [exec_writeFieldFull_servedWrite dt field ho hp hf hk, hbegin]
    have finish : ∀ {after seq eng sweep drv out} (es : List Entry),
        releaseClaim (overlay a f ended) = absorbed k f es seq eng sweep drv out ended →
        NothingDue (absorbed k f es seq eng sweep drv out ended) →
        findEntry es a = some after → (∀ x ≠ a, findEntry es x = findEntry s.map.entries x) →
        absorbs after seq eng sweep drv out := by
      intro after seq eng sweep drv out es hend hstill hafter hothers
      obtain ⟨hread, hslots⟩ := readSlot_putSlot (s := s) (t := absorbed k f es seq eng sweep drv out ended) (k := k)
        hwf rfl rfl hlen hwords
      exact ⟨absorbed k f es seq eng sweep drv out ended, by rw [hexec, settle_eq hend hstill], hafter, hread, hothers,
        hslots, putSlot_wf hwf, rfl, rfl, rfl, rfl, rfl, rfl, rfl, rfl, rfl, rfl, rfl, rfl, rfl, rfl, rfl⟩
    have awaits : ∀ t : State, t.ctl = ended.ctl → awaitsDrive t = awaitsDrive b := fun t ht => by
      rw [awaitsDrive_of_kind (o := { o with fieldEnded := true }) (by rw [ht]) (by simp [hk]),
        awaitsDrive_of_kind (s := b) ho (by simp [hk])]
    refine ⟨fun he hc => ?unmapped, fun he hne hslot => ?settled, fun he hpend hc hj hblocked => ?pending⟩
    case unmapped =>
      refine finish _ (congrArg releaseClaim (overlay_unmapped (s := ended) f he hc))
        (nothingDue_of_eq still (nextAct_congr rfl rfl rfl rfl rfl rfl rfl (awaits _ rfl))) ?_ fun x hx => ?_
      · rw [findEntry_withBody_insertEntry he, if_pos rfl]
      · rw [findEntry_withBody_insertEntry he, if_neg hx]
    case settled =>
      obtain ⟨kind, n, w, hbody⟩ := settled_of_slot hslot
      rw [entryCounts_settled hbody]
      exact finish _ (congrArg releaseClaim (overlay_settled (s := ended) f he hbody))
        (nothingDue_of_eq still (nextAct_congr rfl rfl rfl rfl rfl rfl rfl (awaits _ rfl)))
        (findEntry_withBody_same he _) fun x hx => findEntry_withBody_other hx _ _
    case pending =>
      intro after noticed
      have ha : j.addr = a := addr_of_jobOf hj
      have hoverlay := overlay_pending (s := ended) f he hpend hj hc
      have hafter := findEntry_withBody_same he (.settled .overlay j.readsSpent j.lastWeak k)
      have hothers : ∀ x ≠ a, findEntry (withBody a (.settled .overlay j.readsSpent j.lastWeak k) s.map.entries) x =
          findEntry s.map.entries x := fun x hx => findEntry_withBody_other hx _ _
      refine ⟨fun hbehind => ?behind, fun hq hrest hholder => ?first, fun hq hstate hsweep hholder hw hpass hstep
        hcapture hdue => ?holding⟩
      case behind =>
        exact finish _ (congrArg releaseClaim (hoverlay.trans (cancelJob_behind hj hbehind hblocked)))
          (nothingDue_of_eq still (nextAct_congr rfl rfl (head?_withoutJob hbehind) rfl rfl rfl rfl (awaits _ rfl))) hafter hothers
      case first =>
        exact finish _
          (congrArg releaseClaim (hoverlay.trans (cancelJob_first hq ha hrest
            (fun h => by cases hholder.symm.trans h) hblocked)))
          (nothingDue_of_eq still (nextAct_congr_controller hholder rfl rfl rfl (awaits _ rfl))) hafter hothers
      case holding =>
        rw [← noticed_idle hsweep]
        refine finish _ (congrArg releaseClaim (hoverlay.trans (cancelJob_first_holding hq ha (by simp) hstate hholder
          hstep hdue hcapture hblocked))) ?_ hafter hothers
        exact nothingDue_of_nobody rfl hpass hw hdue (headMayRun_of_empty rfl) (sweepMayRun_of_idle hsweep)
  case service =>
    rw [exec_writeFieldFull_serviceWrite dt field ho hp hf hk (by omega), hbegin]
  case live =>
    rw [exec_writeFieldFull_liveWrite dt field ho hp hf hk, hbegin]

end Sys2Proof.Machine
end

section
/-!
PROOFS. The ends of a live read's capture: the head's record (R163 to R167), the map (R48, R77) and the admission (R45,
R90, R92, R94).
-/

namespace Sys2Proof.Machine

/-! ### Head records -/

/-- The worn flag a record has at a score (R167). -/
def wornAt (r : HeadRecord) (score : Nat) : Bool :=
  if score ≤ r.threshold then true else if r.threshold + 16 ≤ score then false else r.worn

theorem evalWorn_eq (r : HeadRecord) : evalWorn r = { r with worn := wornAt r r.score } := by
  unfold evalWorn wornAt
  split
  · rfl
  · split <;> rfl

theorem logIncident_eq (k : IncidentKind) (s : State) : logIncident k s = { s with log := loggedIn k s s.log } := rfl

/-- A head that is not worn stays so above its threshold (R167). -/
theorem wornAt_of_lt {r : HeadRecord} {score : Nat} (hw : r.worn = false) (h : r.threshold < score) :
    wornAt r score = false := by
  unfold wornAt
  rw [if_neg (by omega), hw]
  split <;> rfl

/-- A rising score sets no worn flag (R167). -/
theorem wornAt_rise {r : HeadRecord} {score : Nat} (ok : HeadOk r) (h : r.score ≤ score) (hw : r.worn = false) :
    wornAt r score = false := by
  obtain ⟨-, -, -, -, -, hlow, -⟩ := ok
  have hthreshold : r.threshold < r.score := by
    by_contra hle
    simp [hlow (by omega)] at hw
  exact wornAt_of_lt hw (by omega)

/-- A head's change that sets no worn flag is logged nowhere (R167). -/
theorem changeHead_quiet {s : State} {h : Nat} {r : HeadRecord} {f : HeadRecord → HeadRecord}
    (hr : s.heads[h]? = some r) (hquiet : r.worn = false → wornAt (f r) (f r).score = false) :
    changeHead h f s = { s with heads := s.heads.set h { f r with worn := wornAt (f r) (f r).score } } := by
  simp only [changeHead, hr, evalWorn_eq]
  rw [if_neg]
  cases hw : r.worn <;> simp [hquiet, hw]

/-- The credit of a clean first look (R163). -/
theorem creditCleanLook_eq {s : State} {h : Nat} {r : HeadRecord} (hr : s.heads[h]? = some r) (ok : HeadOk r) :
    creditCleanLook h s = { s with heads := s.heads.set h { r with
      score := min (r.score + 1) 200
      cleanReads := min (r.cleanReads + 1) 65535
      worn := wornAt r (min (r.score + 1) 200) } } := by
  have hscore : r.score ≤ min (r.score + 1) 200 := by have := ok.1; omega
  exact changeHead_quiet hr (wornAt_rise ok hscore)

/-- The debit of a failing live read, with its incident when it wears the head (R164, R167). -/
theorem debitLiveRead_eq {s : State} {h : Nat} {r : HeadRecord} (hr : s.heads[h]? = some r) :
    debitLiveRead h s =
      let debited : State :=
        { s with heads := s.heads.set h { r with score := r.score - 2, worn := wornAt r (r.score - 2) } }
      if wornAt r (r.score - 2) && !r.worn then { debited with log := loggedIn (.headWorn h) s s.log }
      else debited := by
  simp only [debitLiveRead, changeHead, hr, evalWorn_eq, logIncident_eq]
  rfl

/-- The notice of a clean recovery that leaves the head above its threshold (R165). -/
theorem noticeRecovered_clean {s : State} {h n : Nat} {r : HeadRecord} (hr : s.heads[h]? = some r)
    (hw : r.worn = false) (hscore : r.threshold < r.score - min n 15) :
    noticeRecovered h .clean n s = { s with heads := s.heads.set h { r with
      score := r.score - min n 15
      recoveries := min (r.recoveries + 1) 65535 } } := by
  have hworn : wornAt { r with score := r.score - (min n 15 + 0), recoveries := countUp r.recoveries }
      (r.score - (min n 15 + 0)) = false := wornAt_of_lt hw hscore
  refine (changeHead_quiet hr fun _ => hworn).trans ?_
  rw [show surcharge .clean = 0 from rfl, hworn, ← hw]
  rfl

/-! ### A sector found clean -/

/-- With no claim standing, a sector's image goes into the lowest free slot (R40). -/
theorem settleInNewSlot_unclaimed {s : State} (h : s.map.claim = none) (a : Addr) (kind : Settled) (f : Field) (n : Nat)
    (w : Option Nat) : settleInNewSlot a kind f n w s = { s with
      map.entries := withBody a (.settled kind n w (freeSlot s)) s.map.entries
      map.store := putSlot (freeSlot s) (packImage s.straps.bits f) s.map.store } := by
  simp [settleInNewSlot, slotFor, passClaimSlot, h, setBody, writeSlot, withBody]

/-- A job that is not first leaves the queue while the sweep is IDLE: nothing else changes (R77, R157). -/
theorem removeJob_behind {s : State} {a : Addr} (hbehind : (headJob s).map Job.addr ≠ some a)
    (hsweep : s.sweep.state = .idle) : removeJob a s = { s with seq.queue := withoutJob a s.seq.queue } := by
  rw [removeJob, reorder_withoutJob_behind hbehind]
  simp [noticeSweep, hsweep]

/-- A RECOVERED end of a job whose sector is not withheld (R77): once its parts have led to a state, that is the end. -/
theorem endRecovered_eq {s t : State} {a : Addr} {m : Method} {f : Field} {j : Job} (hj : jobOf s a = some j)
    (ht : removeJob a (noticeRecovered a.head m j.readsSpent (mapRecovered a m f j.readsSpent j.lastWeak s)) = t)
    (hw : t.ctl.withhold = none) : endRecovered a m f s = t := by
  simp only [endRecovered, hj, ht]
  simp [isWithheld, hw]

/-- A PENDING sector without a claim, found clean by a live read while its job is not first: its entry takes the lowest
free slot, its job leaves, its head gets the notice (R48, R77, R78). -/
theorem promoteLive_pending {s : State} {a : Addr} {f : Field} {e : Entry} {j : Job} {r : HeadRecord}
    (he : entryOf s a = some e) (hb : e.body = .pending) (hj : jobOf s a = some j)
    (hbehind : (headJob s).map Job.addr ≠ some a) (hclaim : s.map.claim = none) (hsweep : s.sweep.state = .idle)
    (hwithheld : s.ctl.withhold = none) (hr : s.heads[a.head]? = some r) (hw : r.worn = false)
    (hscore : r.threshold < r.score - min j.readsSpent 15) :
    promoteLive a f s = { s with
      map.entries := withBody a (.settled (.recovered .clean) j.readsSpent j.lastWeak (freeSlot s)) s.map.entries
      map.store := putSlot (freeSlot s) (packImage s.straps.bits f) s.map.store
      heads := s.heads.set a.head { r with
        score := r.score - min j.readsSpent 15
        recoveries := min (r.recoveries + 1) 65535 }
      seq.queue := withoutJob a s.seq.queue
      eng := markedVotes a s.eng } := by
  have hmap : mapRecovered a .clean f j.readsSpent j.lastWeak (markDiscard a s) = _ :=
    settleInNewSlot_unclaimed (s := markDiscard a s) hclaim _ _ _ _ _
  simp only [promoteLive, he, hb]
  refine endRecovered_eq (j := j) hj ?_ hwithheld
  rw [hmap]
  refine (congrArg (removeJob a) (noticeRecovered_clean ?_ hw hscore)).trans (removeJob_behind hbehind hsweep)
  exact hr

/-- An unmapped sector found clean by a live read changes nothing in the map (R33). -/
theorem promoteLive_unmapped {s : State} {a : Addr} (he : entryOf s a = none) (f : Field) : promoteLive a f s = s := by
  simp [promoteLive, he]

/-- A LOST sector found clean by a live read becomes RECOVERED in its own slot with its counts (R48). -/
theorem promoteLive_lost {s : State} {a : Addr} {f : Field} {e : Entry} {k : Nat} (he : entryOf s a = some e)
    (hstate : e.body.stateCode = 3) (hslot : e.body.slot? = some k) : promoteLive a f s = { s with
      map.entries := withBody a (.settled (.recovered .clean) (entryCounts s e).1 (entryCounts s e).2 k) s.map.entries
      map.store := putSlot k (packImage s.straps.bits f) s.map.store } := by
  obtain ⟨kind, n, w, hbody⟩ := settled_of_slot hslot
  cases kind with
  | lost =>
    simp only [promoteLive, he, hbody, entryCounts]
    rfl
  | recovered m => simp [hbody, EntryBody.stateCode] at hstate
  | overlay => simp [hbody, EntryBody.stateCode] at hstate

/-! ### An admission into an empty queue -/

/-- A worn head's job passes over the rungs whose offset is not CENTRE: it comes to the first that is left (R94). -/
theorem skipWorn_eq_findIdx (worn : Bool) (pre rungs : List Rung) :
    skipWorn worn (pre ++ rungs) rungs.length pre.length =
      pre.length + rungs.findIdx fun g => !worn || decide (g.offset = .centre) := by
  induction rungs generalizing pre with
  | nil => simp [skipWorn]
  | cons g gs ih =>
    have ih := ih (pre ++ [g])
    rw [List.append_assoc, List.singleton_append, List.length_append, List.length_singleton] at ih
    rw [List.length_cons, skipWorn, List.getElem?_append_right (Nat.le_refl _), Nat.sub_self, List.getElem?_cons_zero,
      List.findIdx_cons]
    dsimp only
    by_cases hg : g.offset = .centre
    · simp [hg]
    · cases worn with
      | false => simp
      | true => simp [hg, ih]; omega

/-- The only job arrives at a rung that is left for it on its head: it stands there, and nothing else changes (R91, R94). -/
theorem arriveRung_only {s : State} {j : Job} {first : Nat} (hq : s.seq.queue = [j]) (hindex : j.rungIndex = 0)
    (hreads : j.readsDone = 0)
    (hfirst : ((ladderOf s j.ladder).rungs.findIdx fun g => !isWorn s j.addr.head || decide (g.offset = .centre)) = first)
    (hrung : first < (ladderOf s j.ladder).rungs.length) :
    arriveRung j.addr s = { s with seq.queue := [{ j with rungIndex := first }] } := by
  have hjob : jobOf s j.addr = some j := by simp [jobOf, hq]
  have hskip : skipWorn (isWorn s j.addr.head) (ladderOf s j.ladder).rungs (ladderOf s j.ladder).rungs.length
      j.rungIndex = first := by
    rw [hindex]
    exact (skipWorn_eq_findIdx _ [] _).trans (by simpa using hfirst)
  have hplace : (if first = j.rungIndex then s
      else updateJob j.addr (fun j => { j with rungIndex := first, readsDone := 0 }) s) =
      { s with seq.queue := [{ j with rungIndex := first }] } := by
    split
    next h => rw [h, ← hq]
    next => simp [updateJob, hq, hreads]
  simp only [arriveRung, hjob, hskip, Nat.not_le.2 hrung, if_false]
  exact hplace

/-- A job that joins an empty queue comes to its first rung start, with its working rung read there (R90, R92, R94). -/
theorem enqueueJob_empty {s : State} {j : Job} {first : Nat} (hq : s.seq.queue = []) (hindex : j.rungIndex = 0)
    (hreads : j.readsDone = 0)
    (hfirst : ((ladderOf s j.ladder).rungs.findIdx fun g => !isWorn s j.addr.head || decide (g.offset = .centre)) = first)
    (hrung : first < (ladderOf s j.ladder).rungs.length) :
    enqueueJob j s = { s with
      seq.queue := [{ j with rungIndex := first }]
      seq.workingRung := (ladderOf s j.ladder).rungs[first]? } := by
  have hjoin : reorder (joinGroup j) s = { s with seq.queue := [j] } := by
    cases hc : j.cls <;> simp [reorder, joinGroup, headJob, hq, hc]
  rw [enqueueJob, hjoin, startRung, arriveRung_only (s := { s with seq.queue := [j] }) rfl hindex hreads hfirst hrung]
  simp only [headJob, List.head?_cons, if_true]
  rfl

/-- A request for a sector with no entry and no claim, with room in the map and an empty queue: the sector becomes PENDING
with its job at its first rung start (R45, R62, R92). -/
theorem requestJob_empty {s : State} {a : Addr} {cls : JobClass} {org : Origin} {first : Nat} (he : entryOf s a = none)
    (hclaim : s.map.claim = none) (hfree : 0 < freeEntries s) (hq : s.seq.queue = [])
    (hfirst : ((ladderOf s (chooseLadder s a)).rungs.findIdx fun g =>
      !isWorn s a.head || decide (g.offset = .centre)) = first)
    (hrung : first < (ladderOf s (chooseLadder s a)).rungs.length) :
    requestJob a cls org s = { s with
      map.entries := insertEntry ⟨a, org, .pending⟩ s.map.entries
      seq.queue := [⟨a, cls, chooseLadder s a, first, 0, 0, 0, .waiting, none, org, false⟩]
      seq.workingRung := (ladderOf s (chooseLadder s a)).rungs[first]? } := by
  have hmet : refusalOf s a = none := by simp [refusalOf, he, hclaim, hq, hfree.ne', Config.queueRoom]
  have hadmit : requestJob a cls org s = enqueueJob (newJob s a cls org) (addEntry ⟨a, org, .pending⟩ s) := by
    simp [requestJob, hmet, admitSector, he, hclaim]
  exact hadmit.trans
    (enqueueJob_empty (s := addEntry ⟨a, org, .pending⟩ s) (j := newJob s a cls org) hq rfl rfl hfirst hrung)

/-- A request for a sector that has an entry is met without a job (R45). -/
theorem requestJob_mapped {s : State} {a : Addr} {e : Entry} (he : entryOf s a = some e) (cls : JobClass) (org : Origin) :
    requestJob a cls org s = s := by
  simp [requestJob, refusalOf, admitSector, he]

/-! ### The capture's end -/

/-- A live capture that takes data ends full: it is relayed and gives the served rate (R12, R13, R33). -/
theorem exec_captureFull_live {s : State} {c : Capture} (dt : Nat) (field : List Nat) (rate : Nat)
    (hc : s.drv.capture = some c) (hparty : c.party = .live) (hm : c.matched = true) (hg : s.drv.readGate = true) :
    exec (.captureFull dt field rate) s = .next (settle (liveFull c.addr (takeField s.straps field)
      { begin dt s with drv.capture := none, ctl.servedRate := some rate, out := [.relay (takeField s.straps field)] })) := by
  simp only [exec, execCaptureFull, begin_drv, begin_keeps, hc, takingData, hm, hg, Bool.and_self, if_true,
    captureEndsFull, hparty]
  simp [emit]

/-- A live capture that takes data ends SHORT: nothing is relayed (R12, R13). -/
theorem exec_readClockTimeout_live {s : State} {c : Capture} (dt : Nat) (hc : s.drv.capture = some c)
    (hparty : c.party = .live) (hm : c.matched = true) (hg : s.drv.readGate = true) :
    exec (.readClockTimeout dt) s = .next (settle { begin dt s with drv.capture := none }) := by
  simp only [exec, execReadClockTimeout, begin_drv, hc, takingData, hm, hg, Bool.and_self, if_true, captureEndsShort,
    hparty]

theorem isWorn_set {s : State} {h : Nat} {r r' : HeadRecord} (hr : s.heads[h]? = some r)
    {t : State} (ht : t.heads = s.heads.set h r') : isWorn t h = r'.worn := by
  have hlt : h < s.heads.length := (List.getElem?_eq_some_iff.1 hr).1
  simp [isWorn, ht, hlt]

/-- Settles O52: what the capture's end leaves, by the check, the mode and the sector's entry. -/
theorem liveCapturesEnd : Obligations.LiveCapturesEnd := by
  intro dt rate k field c j r e s
  obtain ⟨work, idle, hbegin⟩ := begin_changes dt s
  rw [hbegin]
  intro b hc hparty hm hg has hawaits hr ok a f worn relayed credited debited slot noted rungs first full
  obtain ⟨hw, hstep, htravel, hepisode, hheld, hpass, hholder, hrest⟩ := has
  have still : ∀ t : State, t.ctl.op = s.ctl.op → t.ctl.withhold = none → t.svc = s.svc →
      t.drv = { b.drv with capture := none } → NothingDue t := by
    intro t hop hwithhold hsvc hdrv
    have hwait : awaitsDrive t = false := by simpa only [awaitsDrive, hop] using hawaits
    refine nothingDue_of_controllerHas ⟨hwithhold, ?_⟩ hwait
    simp only [hdrv, hstep, htravel, hepisode, hheld, hpass, hholder, restDue, workDuration, hsvc, true_and]
    exact hrest
  have hfull : ∀ t, liveFull a f relayed = t → NothingDue t → full t := by
    intro t hlive hdue
    show exec _ _ = _
    rw [exec_captureFull_live dt field rate hc hparty hm hg, hbegin]
    exact congrArg Host.Outcome.next (settle_eq hlive hdue)
  refine ⟨fun hpasses => ?passing, fun hfails => ?failing, ?short⟩
  case passing =>
    have hlive : liveFull a f relayed = if isPassive credited then credited else promoteLive a f credited := by
      have hcredit : creditCleanLook a.head relayed = credited := creditCleanLook_eq (s := relayed) hr ok
      simp only [liveFull]
      rw [if_pos hpasses, hcredit]
    refine ⟨fun hmode => hfull _ ?passive (still _ rfl hw rfl rfl),
      fun hmode he => hfull _ ?unmapped (still _ rfl hw rfl rfl),
      fun hmode he hstate hslot => hfull _ ?lost (still _ rfl hw rfl rfl),
      fun hmode he hb hj hbehind hclaim hsweep hworn hscore => hfull _ ?pending (still _ rfl hw rfl rfl)⟩
    case passive => exact hlive.trans (if_pos (decide_eq_true hmode))
    all_goals rw [hlive, if_neg (by simpa [isPassive] using hmode)]
    case unmapped => exact promoteLive_unmapped (s := credited) he f
    case lost => exact promoteLive_lost (s := credited) he hstate hslot
    case pending =>
      have hlt : a.head < s.heads.length := (List.getElem?_eq_some_iff.1 hr).1
      have hclean : wornAt r (min (r.score + 1) 200) = false :=
        wornAt_of_lt hworn (Nat.lt_of_lt_of_le hscore (Nat.sub_le _ _))
      refine (promoteLive_pending (s := credited) he hb hj hbehind hclaim hsweep hw (List.getElem?_set_self hlt) hclean
        hscore).trans ?_
      have hsame : worn (min (r.score + 1) 200) = r.worn := hclean.trans hworn.symm
      simp only [credited, List.set_set, hsame]
      rfl
  case failing =>
    have hlive : liveFull a f relayed = if isPassive noted then noted else requestJob a .foreground .controller noted := by
      have hdebit : debitLiveRead a.head relayed = noted := debitLiveRead_eq (s := relayed) hr
      simp only [liveFull]
      rw [if_neg (by rw [hfails]; simp), hdebit]
    obtain ⟨l, hnoted⟩ : ∃ l, noted = { debited with log := l } := by
      simp only [noted]
      split
      · exact ⟨_, rfl⟩
      · exact ⟨_, rfl⟩
    rw [hnoted] at hlive ⊢
    refine ⟨fun hmode => hfull _ ?passive (still _ rfl hw rfl rfl),
      fun hmode he => hfull _ ?mapped (still _ rfl hw rfl rfl),
      fun hmode he hclaim hfree hq hrung => hfull _ ?admitted (still _ rfl hw rfl rfl)⟩
    case passive => exact hlive.trans (if_pos (decide_eq_true hmode))
    all_goals rw [hlive, if_neg (by simpa [isPassive] using hmode)]
    case mapped => exact requestJob_mapped (s := { debited with log := l }) he _ _
    case admitted =>
      have hworn : isWorn { debited with log := l } a.head = worn (r.score - 2) :=
        isWorn_set (r' := { r with score := r.score - 2, worn := worn (r.score - 2) }) hr rfl
      exact requestJob_empty (s := { debited with log := l }) he hclaim hfree hq (by rw [hworn]; rfl) hrung
  case short =>
    rw [exec_readClockTimeout_live dt hc hparty hm hg, hbegin]
    exact congrArg Host.Outcome.next (settle_still (still _ rfl hw rfl rfl))

end Sys2Proof.Machine
end

section
/-!
PROOFS. The LOST judgement outside PASSIVE mode (R126): each of its parts with the state it leaves, then the judgement as
the sum of its parts.
-/

namespace Sys2Proof.Machine

/-- Is the controller's operation a live one? -/
def isLiveOp (o : Option Op) : Bool := o.any fun o => decide (o.kind = .liveRead ∨ o.kind = .liveWrite)

/-- Does a LOST judgement end the operation: a withheld read, or a live operation before its gate (R32, R37)? -/
def endsAtLost (o : Option Op) : Bool :=
  o.any fun o => decide (o.kind = .withheld ∨ ((o.kind = .liveRead ∨ o.kind = .liveWrite) ∧ o.phase ≠ .transferring))

/-- Is the operation past no gate yet? -/
def beforeTransfer (o : Option Op) : Bool := o.any fun o => decide (o.phase ≠ .transferring)

theorem interruptSweep_eq (s : State) : ∃ w, interruptSweep s = { s with sweep := w } ∧
    w.state = if s.sweep.state = .sweeping then .waiting else s.sweep.state := by
  unfold interruptSweep
  split
  · exact ⟨_, rfl, rfl⟩
  · exact ⟨_, rfl, rfl⟩

/-- The head job loses its copies and its vote result; unless it is VOTING it waits with no reads done (R72). -/
theorem headLosesDrive_eq (s : State) : ∃ q r, headLosesDrive s = { s with seq := ⟨q, [], none, r⟩ } ∧
    q.head? = s.seq.queue.head?.map fun j =>
      if j.state = .voting then j else { j with state := .waiting, readsDone := 0 } := by
  unfold headLosesDrive
  dsimp only
  split
  next hq => exact ⟨s.seq.queue, _, rfl, by rw [show s.seq.queue.head? = none from hq]; rfl⟩
  next j hq =>
    have hq : s.seq.queue.head? = some j := hq
    split
    next hv => exact ⟨s.seq.queue, _, rfl, by simp [hq, hv]⟩
    next hv => exact ⟨_, _, rfl, by simp [hq, hv]⟩

/-- What the controller's operation and its withholding become (R25, R32, R37), by the operation's kind and phase. -/
theorem operationLosesDrive_eq {s : State} (hm : s.svc.mode ≠ .passive)
    (hw : s.ctl.withhold.isSome = true → s.ctl.op.map Op.kind = some .withheld) :
    operationLosesDrive s = { s with
      ctl.op := if endsAtLost s.ctl.op then none else s.ctl.op
      ctl.withhold := none
      ctl.report := (s.ctl.withhold.map fun w =>
        ⟨w.addr, .driveLost, min ((s.clock - w.begun) / 1000) 4095⟩).or s.ctl.report
      ctl.shownFault := s.ctl.shownFault || isLiveOp s.ctl.op || s.ctl.withhold.isSome || endsAtLost s.ctl.op
      drv.capture := if isLiveOp s.ctl.op && beforeTransfer s.ctl.op then none else s.drv.capture } := by
  have hnone : s.ctl.op.map Op.kind ≠ some .withheld → s.ctl.withhold = none := fun h => by
    by_contra hs
    exact h (hw (Option.isSome_iff_ne_none.2 hs))
  cases hop : s.ctl.op with
  | none =>
    have hwn := hnone (by simp [hop])
    simp only [operationLosesDrive, hop, hwn, endsAtLost, isLiveOp, beforeTransfer]
    simp
    rw [← hop, ← hwn]
  | some o =>
    cases hk : o.kind
    case withheld =>
      cases hwh : s.ctl.withhold <;>
        simp [operationLosesDrive, hop, hk, hwh, endsAtLost, isLiveOp, beforeTransfer, closeWithhold, Config.ms]
    case liveRead | liveWrite =>
      have hwn := hnone (by simp [hop, hk])
      by_cases hp : o.phase = .transferring
      · simp [operationLosesDrive, hop, hk, hwn, hp, endsAtLost, isLiveOp, beforeTransfer]
      · simp [operationLosesDrive, hop, hk, hwn, hp, hm, isPassive, endsAtLost, isLiveOp, beforeTransfer]
    case servedRead | servedWrite | serviceRead | serviceWrite =>
      have hwn := hnone (by simp [hop, hk])
      simp [operationLosesDrive, hop, hk, hwn, endsAtLost, isLiveOp, beforeTransfer]
      rw [← hop, ← hwn]

/-- The one CLEAR to a LOST drive reaches its lines, its latch and what is driven (R124). -/
theorem lostClear_changes (s : State) : ∃ l c o, lostClear s = { s with drv.lines := l, drv.clearArmed := c, out := o } := by
  unfold lostClear
  split
  · dsimp only
    split
    · exact ⟨_, _, _, rfl⟩
    · exact ⟨_, _, _, rfl⟩
  · exact ⟨_, _, _, rfl⟩

/-- The mark generator's schedule begins with the period in force (R128). -/
theorem startGenerator_eq (s : State) : startGenerator s = { s with
    drv.genPeriod := s.drv.period.getD 25000
    drv.genNext := some (firstGenerated s.clock (s.drv.lastRelayed.getD 0) (s.drv.period.getD 25000)) } := rfl

/-- The judgement as far as the drive and its holder go (R126, R72, R156): work, holder, step and record. -/
def partyLosesDrive (s : State) : State :=
  { setHolder .nobody
      { headLosesDrive (dropWork (interruptSweep s)) with
        drv.step := none, drv.passOn := .stays, drv.quietDue := none } with
    drv.record := ⟨none, none, none, none⟩
    drv.condition := .lost
    drv.indexCount := 0
    drv.clearArmed := true }

theorem judgeLost_parts (s : State) : judgeLost s =
    passiveGoesOn (lostClear (logIncident .driveLost (startGenerator (operationLosesDrive (partyLosesDrive s))))) := rfl

theorem partyLosesDrive_eq {s : State} (hrest : restDue s = false) :
    ∃ q r w, partyLosesDrive s = { s with
      drv.clearArmed := true
      drv.record := ⟨none, none, none, none⟩
      drv.condition := .lost
      drv.holder := .nobody
      drv.passOn := .stays
      drv.step := none
      drv.travel := none
      drv.episode := none
      drv.quietDue := none
      drv.indexCount := 0
      drv.readGate := s.drv.readGate && !deviceCapture s
      drv.capture := if deviceCapture s then none else s.drv.capture
      seq := ⟨q, [], none, r⟩
      sweep := w
      out := s.out ++ if s.drv.readGate && deviceCapture s then [.readGate false] else [] } ∧
    (q.head? = s.seq.queue.head?.map fun j =>
      if j.state = .voting then j else { j with state := .waiting, readsDone := 0 }) ∧
    w.state = if s.sweep.state = .sweeping then .waiting else s.sweep.state := by
  obtain ⟨w, hsweep, hstate⟩ := interruptSweep_eq s
  obtain ⟨q, r, hhead, hq⟩ := headLosesDrive_eq (dropWork { s with sweep := w })
  rw [dropWork_eq] at hq
  refine ⟨q, r, w, ?_, hq, hstate⟩
  rw [partyLosesDrive, hsweep, hhead, dropWork_eq, setHolder_nobody]
  · rfl
  · exact hrest

/-- Outside PASSIVE mode held orders are dropped (log 16). -/
theorem passiveGoesOn_eq {s : State} (hm : s.svc.mode ≠ .passive) :
    passiveGoesOn s = { s with drv.heldOrders := [] } := by
  simp [passiveGoesOn, isPassive, hm]

/-- The LOST judgement outside PASSIVE mode with no rest due (R126): what it leaves of the block. -/
theorem judgeLost_eq {s : State} (hm : s.svc.mode ≠ .passive) (hrest : restDue s = false)
    (hw : s.ctl.withhold.isSome = true → s.ctl.op.map Op.kind = some .withheld) :
    ∃ l c n q r w o, judgeLost s = { s with
      drv := { s.drv with
        lines := l
        clearArmed := c
        genNext := some n
        genPeriod := s.drv.period.getD 25000
        record := ⟨none, none, none, none⟩
        condition := .lost
        holder := .nobody
        passOn := .stays
        step := none
        travel := none
        episode := none
        heldOrders := []
        quietDue := none
        indexCount := 0
        readGate := s.drv.readGate && !deviceCapture s
        capture := if isLiveOp s.ctl.op && beforeTransfer s.ctl.op then none
          else if deviceCapture s then none else s.drv.capture }
      ctl.op := if endsAtLost s.ctl.op then none else s.ctl.op
      ctl.withhold := none
      ctl.report := (s.ctl.withhold.map fun w =>
        ⟨w.addr, .driveLost, min ((s.clock - w.begun) / 1000) 4095⟩).or s.ctl.report
      ctl.shownFault := s.ctl.shownFault || isLiveOp s.ctl.op || s.ctl.withhold.isSome || endsAtLost s.ctl.op
      seq := ⟨q, [], none, r⟩
      sweep := w
      log := loggedIn .driveLost s s.log
      out := o } ∧
    (q.head? = s.seq.queue.head?.map fun j =>
      if j.state = .voting then j else { j with state := .waiting, readsDone := 0 }) ∧
    w.state = if s.sweep.state = .sweeping then .waiting else s.sweep.state := by
  obtain ⟨q, r, w, hparty, hq, hstate⟩ := partyLosesDrive_eq hrest
  choose lines armed out hclear using lostClear_changes
  rw [judgeLost_parts, hparty, operationLosesDrive_eq, startGenerator_eq, logIncident_eq, hclear, passiveGoesOn_eq]
  · exact ⟨_, _, _, q, r, w, _, rfl, hq, hstate⟩
  · exact hm
  · exact hm
  · exact hw

/-! ### The commands that judge -/

theorem headMayRun_of_lost {s : State} (h : s.drv.condition = .lost) : headMayRun s = false := by
  simp [headMayRun, deviceMayWork, h]

theorem sweepMayRun_of_lost {s : State} (h : s.drv.condition = .lost) : sweepMayRun s = false := by
  simp [sweepMayRun, deviceMayWork, h]

/-- READY's fall under a TURNING drive is a judgement at once (R124, R126). -/
theorem exec_driveReadyFalls_turning (dt : Nat) {s : State} (h : s.drv.condition = .turning) :
    exec (.driveReadyFalls dt) s = .next (settle (judgeLost { begin dt s with
      drv.lines.ready := false, drv.indexChain := false, drv.indexCount := 0 })) := by
  simp only [exec, execDriveReadyFalls, begin_drv, h]

theorem exec_indexWatchdog_turning {s : State} {t p : Nat} (h : s.drv.condition = .turning)
    (ht : s.drv.lastIndex = some t) (hp : s.drv.period = some p) :
    exec .indexWatchdog s = .next (settle (judgeLost (beginAt (t + 3 * p) s))) := by
  simp only [exec, execIndexWatchdog, h, ht, hp]

theorem exec_faultEpisodeTimeout_raised {s : State} {x : Episode} (h : s.drv.episode = some x)
    (hf : s.drv.lines.fault = true) :
    exec .faultEpisodeTimeout s = .next (settle (judgeLost (beginAt (x.clearedAt + 50000) s))) := by
  simp only [exec, execFaultEpisodeTimeout, h, hf, if_true, Config.episodeLimit]

/-- Settles O56: each cause comes to the judgement, after which nothing is due on a LOST drive no one holds. -/
theorem driveIsJudgedLost : Obligations.DriveIsJudgedLost := by
  intro dt t p x c now s hcause hm hrest hw slot live ofDevice notInTransfer dropped
  obtain ⟨d, l, chain, n, hnow, hexec⟩ : ∃ d l chain n, now = begin d s ∧
      exec c s = .next (settle (judgeLost { now with
        drv.lines := l, drv.indexChain := chain, drv.indexCount := n })) := by
    rcases hcause with ⟨rfl, rfl, hc⟩ | ⟨rfl, rfl, hc, ht, hp⟩ | ⟨rfl, rfl, hx, hf⟩
    · exact ⟨dt, _, _, _, rfl, exec_driveReadyFalls_turning dt hc⟩
    · exact ⟨_, _, _, _, rfl, exec_indexWatchdog_turning hc ht hp⟩
    · exact ⟨_, _, _, _, rfl, exec_faultEpisodeTimeout_raised hx hf⟩
  obtain ⟨work, idle, hbegin⟩ := begin_changes d s
  rw [hnow, hbegin] at hrest hexec ⊢
  obtain ⟨lines, armed, next, q, r, w, out, hjudged, hq, hstate⟩ := judgeLost_eq (s := { s with
    clock := s.clock + d, drv.work := work, drv.idle := idle, drv.lines := l, drv.indexChain := chain,
    drv.indexCount := n, out := [] }) hm hrest hw
  have hcapture : ∀ a b : Bool, (if b then none else if a then none else s.drv.capture) =
      if a || b then none else s.drv.capture := by
    intro a b
    cases a <;> cases b <;> rfl
  refine ⟨_, hexec.trans (congrArg Host.Outcome.next (settle_eq hjudged ?_)), rfl, rfl, rfl, rfl, rfl, rfl, rfl,
    hcapture _ _, rfl, rfl, rfl, rfl, rfl, rfl, rfl, ?_, rfl, rfl, rfl, hq, hstate, rfl, rfl, rfl, rfl, rfl, rfl, rfl⟩
  · exact nothingDue_of_nobody rfl rfl rfl hrest (headMayRun_of_lost rfl) (sweepMayRun_of_lost rfl)
  · cases s.ctl.withhold <;> rfl

end Sys2Proof.Machine
end

section
/-!
PROOFS. POSITION and RETURN where the drive is not touched (R19, R20, R23, R35): what the order ends (R15, R37), then the
view, and the head job that reads on when it is granted the drive it has just given up (R65, R76, R130).
-/

namespace Sys2Proof.Machine

/-! ### The view -/

/-- The view moved to a cylinder by an order that does not touch the drive: the shown lines by R19's table, and the recent
orders off the service cylinder (R35). -/
abbrev viewMoved (o : Order) (c : Nat) (s : State) : State :=
  let v := decide (c = serviceCylinder s)
  let real := realCylinder s c
  { s with
    ctl.cyl := c
    ctl.shownOnCylinder := v
    ctl.shownPositionError := s.ctl.shownPositionError || (!v && !real)
    ctl.seekFailed := !v && !real
    ctl.errorCleared := false
    ctl.settleDue := if !v && real && decide (s.svc.mode = .active) then some (s.clock + 1000) else none
    ctl.recentOrders := if v then s.ctl.recentOrders else pushRecent ⟨o, seconds s⟩ s.ctl.recentOrders }

/-- POSITION and RETURN name the view's new cylinder (R18). -/
def GoesTo (o : Order) (c : Nat) : Prop := o = .position c ∨ o = .ret ∧ c = 0

theorem updateView_of_goesTo {o : Order} {c : Nat} (h : GoesTo o c) (s : State) :
    updateView o s = { s with ctl.cyl := c } := by
  rcases h with rfl | ⟨rfl, rfl⟩ <;> rfl

theorem recordOrder_eq (o : Order) (s : State) : recordOrder o s = { s with
    ctl.recentOrders := if viewOnService s then s.ctl.recentOrders
      else pushRecent ⟨o, seconds s⟩ s.ctl.recentOrders } := by
  unfold recordOrder
  split <;> rfl

/-- The lines that go with a new view cylinder, by R19's table. -/
theorem positionView_eq {s : State} (h : s.svc.mode ≠ .passive ∨ s.ctl.cyl = serviceCylinder s)
    (hdue : s.ctl.settleDue = none) (hfailed : s.ctl.seekFailed = false) :
    positionView s = { s with
      ctl.shownOnCylinder := viewOnService s
      ctl.shownPositionError := s.ctl.shownPositionError || (!viewOnService s && !realCylinder s s.ctl.cyl)
      ctl.seekFailed := !viewOnService s && !realCylinder s s.ctl.cyl
      ctl.settleDue := if !viewOnService s && realCylinder s s.ctl.cyl && decide (s.svc.mode = .active) then
        some (s.clock + 1000) else none } := by
  cases hv : viewOnService s with
  | true => simp [positionView, hv, hdue, hfailed]
  | false =>
    have hmode : s.svc.mode ≠ .passive := h.resolve_right (of_decide_eq_false hv)
    cases hr : realCylinder s s.ctl.cyl with
    | false => simp [positionView, hv, hr, hdue]
    | true =>
      cases hm : s.svc.mode with
      | passive => exact absurd hm hmode
      | active => simp [positionView, hv, hr, hm, startViewSettle, Config.ms, hfailed]
      | captive => simp [positionView, hv, hr, hm, hdue, hfailed]

/-- Once what it ends has ended, the order moves the view (R18, R19, R35). -/
theorem actPosition_eq {o : Order} {c : Nat} {s : State} (ho : GoesTo o c)
    (h : s.svc.mode ≠ .passive ∨ c = serviceCylinder s) :
    actPosition o (recordOrder o (updateView o s)) = viewMoved o c s := by
  have hstays : (isPassive s && !decide (c = serviceCylinder s)) = false := by
    rcases h with h | h <;> simp [isPassive, h]
  rw [updateView_of_goesTo ho, recordOrder_eq, actPosition]
  refine (if_neg (Bool.eq_false_iff.1 hstays)).trans ((positionView_eq ?_ rfl rfl).trans rfl)
  exact h

theorem nextAct_viewMoved (o : Order) (c : Nat) (s : State) : nextAct (viewMoved o c s) = nextAct s :=
  nextAct_congr rfl rfl rfl rfl rfl rfl rfl rfl

/-- What POSITION and RETURN come to, if ending what was under way leads to `m` and what is due after the view's move
leads to `e`. -/
theorem exec_movesView {dt c : Nat} {s m : State} (e : State)
    (hm : endWithholdByOrder (endOperation (begin dt s)) = m) (hsvc : m.svc = s.svc) (hstraps : m.straps = s.straps)
    (hsettle : ∀ o c, settle (viewMoved o c m) = viewMoved o c e) :
    ((s.svc.mode ≠ .passive ∨ c = serviceCylinder s) →
      exec (.position dt c) s = .next (viewMoved (.position c) c e)) ∧
    (s.svc.mode ≠ .passive → exec (.returnOrder dt) s = .next (viewMoved .ret 0 e)) := by
  have hmoves : ∀ o c, GoesTo o c → (s.svc.mode ≠ .passive ∨ c = serviceCylinder s) →
      settle (actPosition o (takeOrder o (begin dt s))) = viewMoved o c e := fun o c ho h => by
    rw [takeOrder, hm, actPosition_eq ho (by simpa only [hsvc, serviceCylinder, hstraps] using h)]
    exact hsettle o c
  exact ⟨fun h => congrArg Host.Outcome.next (hmoves _ _ (.inl rfl) h),
    fun h => congrArg Host.Outcome.next (hmoves _ _ (.inr ⟨rfl, rfl⟩) (.inl h))⟩

/-- Where nothing is due once the order has ended what was under way, the view's move is the whole effect. -/
theorem exec_movesView_still {dt c : Nat} {s : State} (m : State)
    (hm : endWithholdByOrder (endOperation (begin dt s)) = m) (hsvc : m.svc = s.svc) (hstraps : m.straps = s.straps)
    (still : NothingDue m) :
    ((s.svc.mode ≠ .passive ∨ c = serviceCylinder s) →
      exec (.position dt c) s = .next (viewMoved (.position c) c m)) ∧
    (s.svc.mode ≠ .passive → exec (.returnOrder dt) s = .next (viewMoved .ret 0 m)) :=
  exec_movesView m hm hsvc hstraps fun o c => settle_still ((nextAct_viewMoved o c m).trans still)

/-! ### What the order ends -/

theorem stopSending_eq (o : Op) (s : State) : stopSending o s = { s with
    out := s.out ++ if o.phase = .transferring ∧ o.fieldEnded = false then [.serveEnds] else [] } := by
  unfold stopSending
  split
  · rfl
  · simp

/-- A served or service read's end stops the sending (R29). -/
theorem endOperation_sentRead {s : State} {o : Op} (h : s.ctl.op = some o)
    (hk : o.kind = .servedRead ∨ o.kind = .serviceRead) : endOperation s = { s with
      ctl.op := none
      out := s.out ++ if o.phase = .transferring ∧ o.fieldEnded = false then [.serveEnds] else [] } := by
  rcases hk with hk | hk
  · simp only [endOperation, h, hk, stopSending_eq]
  · simp only [endOperation, h, hk, stopSending_eq]

theorem endOperation_withheld {s : State} {o : Op} (h : s.ctl.op = some o) (hk : o.kind = .withheld) :
    endOperation s = { s with ctl.op := none } := by
  simp [endOperation, h, hk]

/-- A live read's capture ends with its gate (R12). -/
theorem lowerLiveReadGate_eq {s : State} (h : (s.drv.capture.all fun c => decide (c.party = .live)) = true) :
    lowerLiveReadGate s = { s with
      drv.capture := none
      drv.readGate := false
      out := s.out ++ if s.drv.readGate then [.readGate false] else [] } := by
  cases hc : s.drv.capture with
  | none => simp only [lowerLiveReadGate, hc, lowerReadGate_eq]
  | some c => simp [lowerLiveReadGate, hc, lowerReadGate_eq, show c.party = .live by simpa [hc] using h]

/-- A live read's end lowers its gate, ends its capture, takes back its re-seat and starts the quiet interval (R12, R122,
R131). -/
theorem endOperation_liveRead {s : State} {o : Op} (h : s.ctl.op = some o) (hk : o.kind = .liveRead)
    (hh : s.drv.holder = .controller) (hc : (s.drv.capture.all fun c => decide (c.party = .live)) = true)
    (ht : (s.drv.travel.all fun t => decide (t.purpose = .reseatLive)) = true) : endOperation s = { s with
      ctl.op := none
      drv.travel := none
      drv.capture := none
      drv.readGate := false
      drv.quietDue := some (s.clock + s.svc.params.quietInterval * 1000)
      out := s.out ++ if s.drv.readGate then [.readGate false] else [] } := by
  have hdrop : ∀ t, s.drv.travel = some t → t.purpose = .reseatLive ∨ t.purpose = .reseatWithhold := fun t e => by
    rw [e] at ht
    exact .inl (by simpa using ht)
  simp only [endOperation, h, hk]
  rw [lowerLiveReadGate_eq (s := { s with ctl.op := none }) hc]
  exact endUse_dropReseat hh hdrop

theorem endWithholdByOrder_none {s : State} (h : s.ctl.withhold = none) : endWithholdByOrder s = s := by
  simp [endWithholdByOrder, h]

/-- With the controller holding the drive and nothing for it to go on with, nothing is due. -/
theorem nothingDue_of_controllerRests {s : State} (hw : s.ctl.withhold = none) (hop : s.ctl.op = none)
    (hh : s.drv.holder = .controller) (hpass : s.drv.passOn = .stays) (hheld : s.drv.heldOrders = [])
    (htravel : s.drv.travel = none) (hrest : restDue s = false) : NothingDue s := by
  simp [NothingDue, nextAct, restMeetsWithhold, limitEnds, sweepYields, holderAct, hw, hh, hpass, hheld, htravel, hrest,
    awaitsDrive_none hop]

/-- With a step in flight for RECOVERY nothing is due before it ends. -/
theorem nothingDue_of_recoveryStep {s : State} (hw : s.ctl.withhold = none) (hh : s.drv.holder = .recovery)
    (hstep : s.drv.step.isSome = true) (hrest : restDue s = false) : NothingDue s := by
  have hsome : s.drv.step.isNone = false := by rw [← Option.not_isSome, hstep]; rfl
  simp [NothingDue, nextAct, restMeetsWithhold, limitEnds, sweepYields, hw, hh, hstep, hsome, hrest]

end Sys2Proof.Machine
end

section
/-!
PROOFS. POSITION and RETURN during a withholding (R37, R76): the job demoted, the drive given up, and the job that is alone
in the queue granted the drive again (R65, R130).
-/

namespace Sys2Proof.Machine

/-! ### The withheld job -/

/-- A job as it stands after it was demoted and stood down (R76). -/
abbrev demotedJob (j : Job) : Job := { j with cls := .background, state := .waiting }

theorem closeWithhold_eq {s : State} {w : Withhold} (h : s.ctl.withhold = some w) (k : EndKind) :
    closeWithhold k s = reported k w s := by
  simp only [closeWithhold, h]
  rfl

theorem demoted_first {j : Job} {rest : List Job} (hrest : ∀ x ∈ rest, x.addr ≠ j.addr) :
    demoted j.addr (j :: rest) = rest ++ [{ j with cls := .background }] := by
  have hleft : withoutJob j.addr (j :: rest) = rest := by
    have : withoutJob j.addr (j :: rest) = withoutJob j.addr rest := by simp [withoutJob]
    rw [this, withoutJob_of_not_mem hrest]
  simp [demoted, hleft, joinGroup]

/-- The only job demoted stays the head: ACTIVE, it stands down and gives up the drive (R76). -/
theorem demoteJob_only {s : State} {j : Job} (hq : s.seq.queue = [j]) :
    demoteJob j.addr s =
      if j.state = .active then giveUp { s with seq.queue := [demotedJob j] }
      else { s with seq.queue := [{ j with cls := .background }] } := by
  have hreorder : reorder (demoted j.addr) s = { s with seq.queue := [{ j with cls := .background }] } := by
    simp [reorder, headJob, hq, demoted_first (rest := []) (j := j) (by simp)]
  rw [demoteJob, hreorder]
  by_cases hs : j.state = .active
  · simp [headJob, hs, standDown]
  · simp [headJob, hs]

/-- The head job demoted behind others leaves the head: its counts of the rung, copies and working rung are emptied, and it
gives up the drive it held (R70, R76). -/
theorem demoteJob_behind {s : State} {j : Job} {rest : List Job} (hq : s.seq.queue = j :: rest) (hne : rest ≠ [])
    (hrest : ∀ x ∈ rest, x.addr ≠ j.addr) (hvote : j.state ≠ .voting) :
    demoteJob j.addr s =
      if j.state ≠ .waiting ∧ s.drv.holder = .recovery then
        giveUp { s with seq := ⟨rest ++ [{ demotedJob j with readsDone := 0 }], [], none, none⟩ }
      else { s with seq := ⟨rest ++ [{ demotedJob j with readsDone := 0 }], [], none, none⟩ } := by
  obtain ⟨x, xs, rfl⟩ := List.exists_cons_of_ne_nil hne
  have hx : x.addr ≠ j.addr := hrest x (by simp)
  have hsame : (xs.map fun y => if y.addr = j.addr then { y with state := .waiting, readsDone := 0 } else y) = xs :=
    (List.map_congr_left (g := id) fun y hy => if_neg (hrest y (by simp [hy]))).trans (List.map_id _)
  have hreorder : reorder (demoted j.addr) s =
      if j.state ≠ .waiting ∧ s.drv.holder = .recovery then
        giveUp { s with seq := ⟨x :: xs ++ [{ demotedJob j with readsDone := 0 }], [], none, none⟩ }
      else { s with seq := ⟨x :: xs ++ [{ demotedJob j with readsDone := 0 }], [], none, none⟩ } := by
    simp only [reorder, headJob, hq, List.head?_cons, demoted_first hrest]
    simp [hx, leaveHead, emptyHeadWork, updateJob, hsame, hvote]
  obtain ⟨d, out, hgives⟩ := giveUp_if_changes (j.state ≠ .waiting ∧ s.drv.holder = .recovery)
    { s with seq := ⟨x :: xs ++ [{ demotedJob j with readsDone := 0 }], [], none, none⟩ }
  rw [demoteJob, hreorder]
  refine Eq.trans ?_ (if_congr Iff.rfl rfl rfl)
  rw [show (if j.state ≠ .waiting ∧ s.drv.holder = .recovery then _ else _) = _ from hgives]
  simp [headJob, hx]

/-- The queue's block after the head job was demoted (R60, R70, R76). -/
abbrev demotedQueue (g : Sequencer) (j : Job) (rest : List Job) : Sequencer :=
  if rest = [] then { g with queue := [demotedJob j] }
  else ⟨rest ++ [{ demotedJob j with readsDone := 0 }], [], none, none⟩

/-- A WAITING head job is demoted: nothing but the queue's block changes (R76). -/
theorem demoteJob_waiting {s : State} {j : Job} {rest : List Job} (hq : s.seq.queue = j :: rest)
    (hrest : ∀ x ∈ rest, x.addr ≠ j.addr) (hj : j.state = .waiting) :
    demoteJob j.addr s = { s with seq := demotedQueue s.seq j rest } := by
  by_cases hne : rest = []
  · subst hne
    rw [demoteJob_only hq]
    simp [demotedQueue, demotedJob, hj]
  · rw [demoteJob_behind hq hne hrest (by simp [hj])]
    simp [demotedQueue, hj, hne]

/-- An ACTIVE head job is demoted and gives up the drive, whether or not it stays the head (R70, R76). -/
theorem demoteJob_active {s : State} {j : Job} {rest : List Job} (hq : s.seq.queue = j :: rest)
    (hrest : ∀ x ∈ rest, x.addr ≠ j.addr) (hj : j.state = .active) (hh : s.drv.holder = .recovery) :
    demoteJob j.addr s = giveUp { s with seq := demotedQueue s.seq j rest } := by
  by_cases hne : rest = []
  · subst hne
    rw [demoteJob_only hq, if_pos hj]
    rfl
  · rw [demoteJob_behind hq hne hrest (by simp [hj]), if_pos ⟨by simp [hj], hh⟩, demotedQueue, if_neg hne]

/-- A party gives up the drive when its step in flight has ended (R134). -/
theorem giveUp_stepping {s : State} (hh : s.drv.holder = .recovery) (hstep : s.drv.step.isSome = true)
    (hpass : s.drv.passOn = .stays) (hc : s.drv.capture = none) :
    giveUp s = { s with drv.travel := none, drv.episode := none, drv.passOn := .toNobody } := by
  have hdevice : deviceCapture s = false := by simp [deviceCapture, hc]
  simp [giveUp, hh, Holder.isDevice, dropWork_eq, hdevice, hstep, hpass]

/-! ### The end of a withholding by an order -/

theorem dropReseat_changes_travel (s : State) : ∃ t, dropReseat s = { s with drv.travel := t } := by
  unfold dropReseat
  split
  · split
    · exact ⟨_, rfl⟩
    · exact ⟨_, rfl⟩
  · exact ⟨_, rfl⟩

theorem endWithholdByOrder_eq {s : State} {w : Withhold} (h : s.ctl.withhold = some w) :
    endWithholdByOrder s = endUse (demoteJob w.addr (dropReseat (reported .order w s))) := by
  simp only [endWithholdByOrder, h, closeWithhold_eq h]

/-- A withholding ended by an order, its job demoted, the drive left as it is (R37, R76). -/
abbrev demotedByOrder (w : Withhold) (j : Job) (rest : List Job) (s : State) : State :=
  { reported .order w s with ctl.op := none, seq := demotedQueue s.seq j rest }

section
variable {s : State} {o : Op} {w : Withhold} {j : Job} {rest : List Job} (hop : s.ctl.op = some o)
  (hk : o.kind = .withheld) (hw : s.ctl.withhold = some w) (ha : w.addr = j.addr) (hq : s.seq.queue = j :: rest)
  (hothers : ∀ x ∈ rest, x.addr ≠ j.addr)
include hop hk hw ha hq hothers

/-- While the controller still holds the drive for the re-seat, its holding goes on with its quiet interval (R76, R122,
R131). -/
theorem endWithheld_reseating (hh : s.drv.holder = .controller) (hj : j.state = .waiting)
    (ht : (s.drv.travel.all fun t => decide (t.purpose = .reseatWithhold)) = true) :
    endWithholdByOrder (endOperation s) = { demotedByOrder w j rest s with
      drv.travel := none
      drv.quietDue := some (s.clock + s.svc.params.quietInterval * 1000) } := by
  have hdrop : ∀ t, s.drv.travel = some t → t.purpose = .reseatLive ∨ t.purpose = .reseatWithhold := fun t e => by
    rw [e] at ht
    exact .inr (by simpa using ht)
  rw [endOperation_withheld hop hk, endWithholdByOrder_eq (s := { s with ctl.op := none }) hw, ha,
    dropReseat_eq (s := reported .order w { s with ctl.op := none }) hdrop]
  refine (congrArg endUse (demoteJob_waiting ?_ hothers hj)).trans (endUse_controller ?_)
  · exact hq
  · exact hh

/-- The job's giving up the drive is all that the order's end of the withholding does to it (R76). -/
theorem endWithheld_holding (hh : s.drv.holder = .recovery) (hj : j.state = .active) :
    ∃ t, endWithholdByOrder (endOperation s) =
      endUse (giveUp { demotedByOrder w j rest s with drv.travel := t }) := by
  obtain ⟨t, hdrop⟩ := dropReseat_changes_travel (reported .order w { s with ctl.op := none })
  refine ⟨t, ?_⟩
  rw [endOperation_withheld hop hk, endWithholdByOrder_eq (s := { s with ctl.op := none }) hw, ha, hdrop]
  refine congrArg endUse (demoteJob_active ?_ hothers hj ?_)
  · exact hq
  · exact hh

/-- With a step in flight the job gives up the drive when it has ended (R134). -/
theorem endWithheld_stepping (hh : s.drv.holder = .recovery) (hj : j.state = .active)
    (hstep : s.drv.step.isSome = true) (hpass : s.drv.passOn = .stays) (hc : s.drv.capture = none) :
    endWithholdByOrder (endOperation s) = { demotedByOrder w j rest s with
      drv.travel := none, drv.episode := none, drv.passOn := .toNobody } := by
  obtain ⟨t, hend⟩ := endWithheld_holding hop hk hw ha hq hothers hh hj
  rw [hend]
  refine (congrArg endUse (giveUp_stepping ?_ ?_ ?_ ?_)).trans ?_
  · exact hh
  · exact hstep
  · exact hpass
  · exact hc
  · simp [endUse, hh]

/-- During a read the job gives up the drive at once, its capture abandoned (R12, R134). -/
theorem endWithheld_reading (hh : s.drv.holder = .recovery) (hj : j.state = .active) (hstep : s.drv.step = none)
    (hpass : s.drv.passOn = .stays) (hrest : restDue s = false) {a : Addr} {m : Bool} {n : Nat}
    (hc : s.drv.capture = some ⟨.recovery, a, m, n⟩) (hgate : s.drv.readGate = true) :
    endWithholdByOrder (endOperation s) = { demotedByOrder w j rest s with
      drv.holder := .nobody
      drv.travel := none
      drv.episode := none
      drv.capture := none
      drv.readGate := false
      out := s.out ++ [.readGate false] } := by
  obtain ⟨t, hend⟩ := endWithheld_holding hop hk hw ha hq hothers hh hj
  rw [hend]
  refine (congrArg endUse (giveUp_eq ?_ ?_ ?_ ?_)).trans ?_
  · simp [hh, Holder.isDevice]
  · exact hstep
  · exact hrest
  · simp [hc]
  · simp [endUse, hpass, hc, hgate]

end

/-! ### The job alone in the queue is granted the drive again -/

/-- Nothing is in flight on the drive, no withholding goes on, and no rest is due. -/
def Still (s : State) : Prop :=
  s.drv.passOn = .stays ∧ s.drv.step = none ∧ s.drv.capture = none ∧ s.drv.episode = none ∧ s.ctl.withhold = none ∧
    restDue s = false

/-- With nothing in flight, what is due is the holder's to do. -/
theorem nextAct_of_still {s : State} (h : Still s) (hh : s.drv.holder ≠ .sweep) : nextAct s = holderAct s := by
  obtain ⟨hpass, hstep, hcapture, hepisode, hw, hrest⟩ := h
  simp [nextAct, restMeetsWithhold, limitEnds, sweepYields, hpass, hstep, hcapture, hepisode, hw, hrest, hh]

/-- RECOVERY holds the drive for the only job, ACTIVE at its working rung, with the given positioning to make. -/
abbrev atRung (k : Job) (g : Rung) (t : Option Travel) (s : State) : State :=
  { s with
    seq := { s.seq with queue := [{ k with state := .active }], workingRung := some g }
    drv.holder := .recovery
    drv.idle := 0
    drv.travel := t }

theorem still_atRung {s : State} (h : Still s) (k : Job) (g : Rung) (t : Option Travel) : Still (atRung k g t s) := h

theorem nextAct_atRung_moving {s : State} (h : Still s) (k : Job) (g : Rung) (t : Travel) :
    nextAct (atRung k g (some t) s) = some .move :=
  (nextAct_of_still (still_atRung h k g _) (by simp)).trans rfl

theorem nextAct_atRung_arrived {s : State} (h : Still s) (k : Job) (g : Rung) :
    nextAct (atRung k g none s) = some .job :=
  (nextAct_of_still (still_atRung h k g _) (by simp)).trans rfl

/-- The positioning of a rung that neither restores nor empties the copies (R95). -/
theorem rungTravel_plain {j : Job} {g : Rung} (hrestore : g.restoreFirst = false) (hcopies : g.resetCopies = false) :
    rungTravel j g = ⟨.rung, j.addr.cyl, j.addr.head, g.strobe, g.offset, [.reach, .select, .margin], false, none⟩ := by
  simp [rungTravel, hrestore, hcopies]

/-- A rung that is not passed over on its head is where the job arrives (R94). -/
theorem skipWorn_stays {worn : Bool} {rungs : List Rung} {i : Nat} {g : Rung} (h : rungs[i]? = some g)
    (hworn : worn = false ∨ g.offset = .centre) (n : Nat) : skipWorn worn rungs n i = i := by
  cases n with
  | zero => rfl
  | succ n => rcases hworn with hworn | hworn <;> simp [skipWorn, h, hworn]

section
variable {s : State} {k : Job} {g : Rung} (hq : s.seq.queue = [k])
  (hg : (ladderOf s k.ladder).rungs[k.rungIndex]? = some g) (hworn : isWorn s k.addr.head = false ∨ g.offset = .centre)
include hq hg hworn

/-- The only job resumed at a rung that is not passed over: its working rung is read, and nothing else changes
(R90, R94). -/
theorem startRung_only : startRung k.addr s = { s with seq.workingRung := some g } := by
  have hlt : k.rungIndex < (ladderOf s k.ladder).rungs.length := (List.getElem?_eq_some_iff.1 hg).1
  have harrive : arriveRung k.addr s = s := by
    simp only [arriveRung, jobOf, hq, List.find?_cons, decide_true, skipWorn_stays hg hworn, if_true,
      Nat.not_le.2 hlt, if_false]
  simp [startRung, harrive, headJob, hq, hg]

end

/-- What resuming the only job needs: its rung with reads left, on a drive whose FAULT is not raised (R65, R90, R96). -/
structure Resumable (k : Job) (g : Rung) (s : State) : Prop where
  queue : s.seq.queue = [k]
  rung : (ladderOf s k.ladder).rungs[k.rungIndex]? = some g
  notSkipped : isWorn s k.addr.head = false ∨ g.offset = .centre
  readsLeft : k.readsDone < g.reads
  budgetLeft : k.readsSpent < effectiveBudget (isWorn s k.addr.head) (ladderOf s k.ladder).budget
  noRestore : g.restoreFirst = false
  keepsCopies : g.resetCopies = false
  noFault : s.drv.lines.fault = false
  inPlace : s.drv.record = ⟨some k.addr.cyl, some k.addr.head, some g.strobe, some g.offset⟩

/-- The grant of the drive to the only job, which takes up its rung (R65, R95, R130). -/
theorem grantHead_only {k : Job} {g : Rung} {s : State} (h : Resumable k g s) (hh : s.drv.holder = .nobody) :
    grantHead s = atRung k g
      (some ⟨.rung, k.addr.cyl, k.addr.head, g.strobe, g.offset, [.reach, .select, .margin], false, none⟩) s := by
  have hholder : setHolder .recovery s = { s with drv.holder := .recovery, drv.idle := 0 } := by
    simp [setHolder, hh, Holder.isDevice]
  have hactive : updateJob k.addr (fun j => { j with state := .active }) (setHolder .recovery s) =
      { s with drv.holder := .recovery, drv.idle := 0, seq.queue := [{ k with state := .active }] } := by
    simp [hholder, updateJob, h.queue]
  have hstart := startRung_only (k := { k with state := .active }) (g := g)
    (s := { s with drv.holder := .recovery, drv.idle := 0, seq.queue := [{ k with state := .active }] })
    rfl h.rung h.notSkipped
  simp only [grantHead, headJob, h.queue, List.head?_cons, hactive]
  rw [hstart]
  simp [takeUpRung, jobOf, goToRung, headJob, Nat.not_le.2 h.readsLeft,
    rungTravel_plain h.noRestore h.keepsCopies, h.noFault]

/-- The next read of a rung with reads and budget left (R96, R97). -/
theorem runJob_atRung {k : Job} {g : Rung} {s : State} (h : Resumable k g s) :
    runJob (atRung k g none s) = { atRung k g none s with
      drv.capture := some ⟨.recovery, k.addr, false, 0⟩
      out := s.out ++ [.order (.targetRead k.addr.sec)] } := by
  simp only [runJob, headJob, List.head?_cons, Nat.not_le.2 h.readsLeft, if_false, readSector]
  exact if_neg (Nat.not_le.2 h.budgetLeft)

/-- With a capture of RECOVERY's in flight nothing is due before it ends. -/
theorem nothingDue_of_recoveryCapture {s : State} (hw : s.ctl.withhold = none) (hh : s.drv.holder = .recovery)
    (hc : s.drv.capture.isSome = true) (hpass : s.drv.passOn = .stays) (hrest : restDue s = false) : NothingDue s := by
  simp [NothingDue, nextAct, restMeetsWithhold, limitEnds, sweepYields, hw, hh, hc, hpass, hrest]

/-- A job alone in the queue, its drive in place, is granted it and reads on at once (R65, R97, R130): the grant, the moves
that have nothing to do, the arrival and the read. -/
theorem settle_resumes {k : Job} {g : Rung} {s : State} (h : Resumable k g s) (still : Still s)
    (hh : s.drv.holder = .nobody) (hk : k.state = .waiting) (hmay : deviceMayWork s = true) :
    settle s = { atRung k g none s with
      drv.capture := some ⟨.recovery, k.addr, false, 0⟩
      out := s.out ++ [.order (.targetRead k.addr.sec)] } := by
  have hgrant : nextAct s = some .grantRecovery := by
    simp [nextAct_of_still still, holderAct, hh, headMayRun, headJob, h.queue, hmay, hk]
  have hmove : ∀ n m t, makeMove t (atRung k g (some t) s) = atRung k g m s →
      settleN (n + 1) (atRung k g (some t) s) = settleN n (atRung k g m s) := fun n m t hm => by
    rw [settleN_act n (nextAct_atRung_moving still k g t)]
    exact congrArg (settleN n) hm
  obtain ⟨n, hn⟩ : ∃ n, settleActs s = n + 6 := ⟨settleActs s - 6, by simp [settleActs]; omega⟩
  rw [settle, hn, settleN_act _ hgrant, show doAct .grantRecovery s = grantHead s from rfl, grantHead_only h hh,
    hmove _ (some ⟨.rung, k.addr.cyl, k.addr.head, g.strobe, g.offset, [.select, .margin], false, none⟩),
    hmove _ (some ⟨.rung, k.addr.cyl, k.addr.head, g.strobe, g.offset, [.margin], false, none⟩),
    hmove _ (some ⟨.rung, k.addr.cyl, k.addr.head, g.strobe, g.offset, [], false, none⟩),
    hmove _ none, settleN_act _ (nextAct_atRung_arrived still k g),
    show doAct .job (atRung k g none s) = runJob (atRung k g none s) from rfl, runJob_atRung h]
  · refine settleN_still n ?_
    obtain ⟨hpass, hstep, -, -, hw, hrest⟩ := still
    exact nothingDue_of_recoveryCapture hw rfl rfl hpass hrest
  all_goals simp [makeMove, arrive, h.inPlace]

/-! ### The obligation -/

/-- Settles O24: by what the order ends; after that nothing is due, or the job alone in the queue reads on. -/
theorem positionMovesTheView : Obligations.PositionMovesTheView := by
  intro dt c o w j rest g s
  obtain ⟨work, idle, hbegin⟩ := begin_changes dt s
  rw [hbegin]
  intro b after moves quiet
  refine ⟨fun ⟨hop, hw, hdue⟩ => ?idle, fun hop hw hdue => ⟨fun hk => ?sent, fun hk => ?write, fun hk => ?service⟩, ?live,
    ?withheld⟩
  case idle =>
    refine exec_movesView_still b ?_ rfl rfl hdue
    rw [hbegin, show endOperation b = b by simp [endOperation, hop]]
    exact endWithholdByOrder_none (s := b) hw
  case sent =>
    refine exec_movesView_still _ ?_ rfl rfl (nothingDue_of_eq hdue (nextAct_congr rfl rfl rfl rfl rfl rfl rfl ?_))
    · rw [hbegin, endOperation_sentRead (s := b) hop hk]
      exact endWithholdByOrder_none hw
    · rw [awaitsDrive_of_kind (s := b) hop (by rcases hk with hk | hk <;> simp [hk])]
      rfl
  case write =>
    refine exec_movesView_still _ ?_ rfl rfl (nothingDue_of_eq hdue (nextAct_congr rfl rfl rfl rfl rfl rfl rfl ?_))
    · rw [hbegin, endOperation_servedWrite (s := b) hop hk]
      exact endWithholdByOrder_none hw
    · rw [awaitsDrive_of_kind (s := b) hop (by simp [hk])]
      rfl
  case service =>
    refine exec_movesView_still _ ?_ rfl rfl (nothingDue_of_eq hdue (nextAct_congr rfl rfl rfl rfl rfl rfl rfl ?_))
    · rw [hbegin, endOperation_serviceWrite (s := b) hop hk]
      exact endWithholdByOrder_none hw
    · rw [awaitsDrive_of_kind (s := b) hop (by simp [hk])]
      rfl
  case live =>
    intro hop hw hh hpass hheld hepisode hrest hc ht ended
    refine ⟨fun hk => ?read, fun hk => ?write⟩
    case read =>
      refine exec_movesView_still _ ?_ rfl rfl (nothingDue_of_controllerRests hw rfl hh hpass hheld rfl hrest)
      rw [hbegin, endOperation_liveRead (s := b) hop hk hh hc ht]
      exact endWithholdByOrder_none hw
    case write =>
      refine exec_movesView_still _ ?_ rfl rfl (nothingDue_of_controllerRests hw rfl hh hpass hheld rfl hrest)
      rw [hbegin, endOperation_liveWrite (s := b) hop hk hh ht]
      exact endWithholdByOrder_none hw
  case withheld =>
    intro hop hk hw ha hq hothers hpass hrest hheld back ended
    refine ⟨fun hh hstep hj ht => ?reseating, fun hh hstep hc hj => ?stepping,
      fun hh hstep hc hgate hj hone hmode hturning hresting hfault hrung hreads hrestore hcopies hworn hbudget hrecord =>
        ?reading⟩
    case reseating =>
      refine exec_movesView_still _ ?_ rfl rfl (nothingDue_of_controllerRests rfl rfl hh hpass hheld rfl hrest)
      rw [hbegin]
      exact endWithheld_reseating (s := b) hop hk hw ha hq hothers hh hj ht
    case stepping =>
      refine exec_movesView_still _ ?_ rfl rfl (nothingDue_of_recoveryStep rfl hh hstep hrest)
      rw [hbegin]
      exact endWithheld_stepping (s := b) hop hk hw ha hq hothers hh hj hstep hpass hc
    case reading =>
      subst hone
      have hends := endWithheld_reading (s := b) hop hk hw ha hq hothers hh hj hstep hpass hrest hc hgate
      rw [demotedByOrder, demotedQueue, if_pos rfl] at hends
      refine exec_movesView _ ((congrArg (fun x => endWithholdByOrder (endOperation x)) hbegin).trans hends) rfl rfl
        fun o c => (settle_resumes (k := back) (g := g) ?_ ?_ rfl rfl ?_).trans ?_
      · exact ⟨rfl, hrung, hworn, hreads, hbudget, hrestore, hcopies, hfault, hrecord⟩
      · exact ⟨hpass, hstep, rfl, rfl, rfl, hrest⟩
      · simp [deviceMayWork, isPassive, hmode, hturning, hresting, b]
      · rw [atRung, ← hh]
        rfl

end Sys2Proof.Machine
end

section
/-!
PROOFS. What no act of the device adds (R17, R34, R68): a target write waiting to be relayed, an eighth copy, and outside
PASSIVE mode a live write or a signal that writes to the drive. One lemma for each operation, in the order of the
definitions, so that a command's lemma is a short use of them.
-/

namespace Sys2Proof.Machine

/-- Where `cp` holds, at most 7 copies are held; where `u` holds, no target write waits to be relayed; and where `b` holds as
well, the operation is no live write and nothing driven writes to the drive. Where `lv` names a level, the drive's READY
stands at it. -/
structure Harmless (cp u b : Prop) (lv : Option Bool) (op : Option Op) (held : List Order) (out : List Signal)
    (copies : List Field) (ready : Bool) : Prop where
  within : b → u
  held : u → ∀ o ∈ held, ∀ k, o ≠ .targetWrite k
  copies : cp → copies.length ≤ 7
  op : b → ∀ o, op = some o → o.kind ≠ .liveWrite
  out : b → WritesNothing out
  ready : ∀ r, lv = some r → ready = r

/-- The parts of a state that `Harmless` looks at. -/
abbrev Writeless (cp u b : Prop) (lv : Option Bool) (s : State) : Prop :=
  Harmless cp u b lv s.ctl.op s.drv.heldOrders s.out s.seq.copies s.drv.lines.ready

variable {cp u b : Prop} {lv : Option Bool} {ready : Bool} {op : Option Op} {held : List Order} {out : List Signal}
  {copies : List Field} {s : State}

theorem Harmless.noOp (h : Harmless cp u b lv op held out copies ready) : Harmless cp u b lv none held out copies ready :=
  { h with op := fun _ _ e => by cases e }

theorem Harmless.newOp (h : Harmless cp u b lv op held out copies ready) {o : Op} (ho : b → o.kind ≠ .liveWrite) :
    Harmless cp u b lv (some o) held out copies ready :=
  { h with op := fun hb _ e => by cases e; exact ho hb }

theorem Harmless.noCopies (h : Harmless cp u b lv op held out copies ready) : Harmless cp u b lv op held out [] ready :=
  { h with copies := by simp }

theorem Harmless.noneHeld (h : Harmless cp u b lv op held out copies ready) : Harmless cp u b lv op [] out copies ready :=
  { h with held := by simp }

/-- Where no level is named READY may move. -/
theorem Harmless.anyReady (h : Harmless cp u b none op held out copies ready) (r : Bool) :
    Harmless cp u b none op held out copies r :=
  { h with ready := nofun }

theorem harmless_append {x : Signal} (h : Harmless cp u b lv op held out copies ready) (hx : b → WritesNothing [x]) :
    Harmless cp u b lv op held (out ++ [x]) copies ready :=
  { h with
    out := fun hb y hy => by
      rcases List.mem_append.1 hy with hy | hy
      · exact h.out hb y hy
      · exact hx hb y hy }

/-- An operation that goes on in another phase is the operation it was. -/
theorem Harmless.onward (h : Harmless cp u b lv op held out copies ready) (f : Op → Op) (hf : ∀ o, (f o).kind = o.kind) :
    Harmless cp u b lv (op.map f) held out copies ready := by
  refine { h with op := fun hb o e => ?_ }
  obtain ⟨o', ho', rfl⟩ := Option.map_eq_some_iff.1 e
  rw [hf]
  exact h.op hb o' ho'

@[simp] theorem writesNothing_order {o : Order} : WritesNothing [.order o] ↔ ∀ k, o ≠ .targetWrite k := by
  simp [WritesNothing]

@[simp] theorem writesNothing_readGate {r : Bool} : WritesNothing [.readGate r] := by simp [WritesNothing]

@[simp] theorem writesNothing_gateFall : WritesNothing [.writeGate false] := by simp [WritesNothing]

@[simp] theorem writesNothing_index : WritesNothing [.index] := by simp [WritesNothing]

@[simp] theorem writesNothing_matchPulse : WritesNothing [.matchPulse] := by simp [WritesNothing]

@[simp] theorem writesNothing_serve {f : Field} {n : Nat} : WritesNothing [.serve f n] := by simp [WritesNothing]

@[simp] theorem writesNothing_serveEnds : WritesNothing [.serveEnds] := by simp [WritesNothing]

@[simp] theorem writesNothing_relay {f : Field} : WritesNothing [.relay f] := by simp [WritesNothing]

theorem emit_harmless {x : Signal} (h : Writeless cp u b lv s) (hx : b → WritesNothing [x]) : Writeless cp u b lv (emit x s) :=
  harmless_append h hx

/-- A state chosen by a condition is harmless if both are. -/
theorem ite_harmless {p : Prop} [Decidable p] {t : State} (hs : Writeless cp u b lv s) (ht : Writeless cp u b lv t) :
    Writeless cp u b lv (if p then s else t) := by
  split
  · exact hs
  · exact ht

/-! ### Time and the drive port -/

theorem begin_harmless {dt} (h : Writeless cp u b lv { s with out := [] }) : Writeless cp u b lv (begin dt s) := by
  obtain ⟨w, i, hb⟩ := begin_changes dt s
  rw [hb]
  exact h

theorem beginAt_harmless {t} (h : Writeless cp u b lv { s with out := [] }) : Writeless cp u b lv (beginAt t s) := begin_harmless h

theorem issueOrder_harmless {o} (h : Writeless cp u b lv s) (ho : b → ∀ k, o ≠ .targetWrite k) : Writeless cp u b lv (issueOrder o s) := by
  have hx := emit_harmless (x := .order o) h fun hb => writesNothing_order.2 (ho hb)
  cases o
  case margin => exact ite_harmless hx hx
  all_goals exact hx

theorem issueStep_harmless {o m} (h : Writeless cp u b lv s) (ho : b → ∀ k, o ≠ .targetWrite k) : Writeless cp u b lv (issueStep o m s) :=
  issueOrder_harmless h ho

theorem completeStep_harmless {st} (h : Writeless cp u b lv s) : Writeless cp u b lv (completeStep st s) := by
  unfold completeStep
  split <;> exact h

theorem lowerReadGate_harmless (h : Writeless cp u b lv s) : Writeless cp u b lv (lowerReadGate s) :=
  ite_harmless (emit_harmless (s := { s with drv.readGate := false }) h fun _ => writesNothing_readGate) h

theorem lowerWriteGate_harmless (h : Writeless cp u b lv s) : Writeless cp u b lv (lowerWriteGate s) :=
  ite_harmless (emit_harmless (s := { s with drv.writeGate := false }) h fun _ => writesNothing_gateFall) h

theorem setHolder_harmless {x} (h : Writeless cp u b lv s) : Writeless cp u b lv (setHolder x s) := by
  have hx : Writeless cp u b lv (if s.drv.holder.isDevice && !x.isDevice && restDue s then markResting s else s) :=
    ite_harmless h h
  exact hx

theorem abandonCapture_harmless (h : Writeless cp u b lv s) : Writeless cp u b lv (abandonCapture s) := by
  unfold abandonCapture
  split
  · exact ite_harmless h (lowerReadGate_harmless h)
  · exact h

theorem dropWork_harmless (h : Writeless cp u b lv s) : Writeless cp u b lv (dropWork s) := abandonCapture_harmless h

theorem giveUp_harmless (h : Writeless cp u b lv s) : Writeless cp u b lv (giveUp s) :=
  have hd := dropWork_harmless h
  ite_harmless (ite_harmless (ite_harmless hd hd) (setHolder_harmless hd)) h

theorem interruptSweep_harmless (h : Writeless cp u b lv s) : Writeless cp u b lv (interruptSweep s) := ite_harmless h h

theorem takeDrive_harmless (h : Writeless cp u b lv s) : Writeless cp u b lv (takeDrive s) :=
  have hd : Writeless cp u b lv (dropWork (interruptSweep (standDown { s with drv.quietDue := none }))) :=
    dropWork_harmless (interruptSweep_harmless h)
  ite_harmless (ite_harmless hd (setHolder_harmless hd)) (setHolder_harmless h)

theorem endUse_harmless (h : Writeless cp u b lv s) : Writeless cp u b lv (endUse s) := ite_harmless h h

/-! ### Heads, the sweep's notices and the map -/

theorem logIncident_harmless {k} (h : Writeless cp u b lv s) : Writeless cp u b lv (logIncident k s) := h

theorem changeHead_harmless {i f} (h : Writeless cp u b lv s) : Writeless cp u b lv (changeHead i f s) := by
  obtain ⟨hs, l, e⟩ := changeHead_changes i f s
  rw [e]
  exact h

theorem noticeSweep_harmless (h : Writeless cp u b lv s) : Writeless cp u b lv (noticeSweep s) := by
  obtain ⟨st, c, e⟩ := noticeSweep_changes s
  rw [e]
  exact h

theorem settleInNewSlot_harmless {a k f n w} (h : Writeless cp u b lv s) : Writeless cp u b lv (settleInNewSlot a k f n w s) := by
  obtain ⟨es, st, c, e⟩ := settleInNewSlot_changes a k f n w s
  rw [e]
  exact h

theorem dropEntry_harmless {a} (h : Writeless cp u b lv s) : Writeless cp u b lv (dropEntry a s) := by
  unfold dropEntry
  split
  · exact h
  · exact noticeSweep_harmless h

/-! ### Votes and the queue -/

theorem handVote_harmless {a i} (h : Writeless cp u b lv s) : Writeless cp u b lv (handVote a i s) := by
  unfold handVote
  split <;> exact h

theorem nextVote_harmless (h : Writeless cp u b lv s) : Writeless cp u b lv (nextVote s) := by
  unfold nextVote
  split <;> exact h

theorem leaveHead_harmless {j : Job} (h : Writeless cp u b lv s) : Writeless cp u b lv (leaveHead j s) := by
  let t := emptyHeadWork (updateJob j.addr (fun j => { j with state := .waiting, readsDone := 0 }) s)
  have ht : Writeless cp u b lv (if j.state = .voting then markDiscard j.addr t else t) := ite_harmless h.noCopies h.noCopies
  exact ite_harmless (giveUp_harmless ht) ht

theorem reorder_harmless {f} (h : Writeless cp u b lv s) : Writeless cp u b lv (reorder f s) := by
  unfold reorder
  dsimp only
  split
  · exact h
  · exact ite_harmless h (leaveHead_harmless h)

theorem removeJob_harmless {a} (h : Writeless cp u b lv s) : Writeless cp u b lv (removeJob a s) :=
  noticeSweep_harmless (reorder_harmless h)

theorem cancelJob_harmless {a} (h : Writeless cp u b lv s) : Writeless cp u b lv (cancelJob a s) := by
  unfold cancelJob
  split
  · exact removeJob_harmless h
  · exact h

/-! ### Operations and withholding -/

theorem beginServed_harmless {k a} (h : Writeless cp u b lv s) (hk : k ≠ .liveWrite) : Writeless cp u b lv (beginServed k a s) :=
  h.newOp fun _ => hk

theorem beginLive_harmless {k a} (h : Writeless cp u b lv s) (hk : b → k ≠ .liveWrite) : Writeless cp u b lv (beginLive k a s) :=
  ite_harmless h.noOp (takeDrive_harmless (h.newOp hk))

theorem dropReseat_harmless (h : Writeless cp u b lv s) : Writeless cp u b lv (dropReseat s) := by
  obtain ⟨t, e⟩ := dropReseat_changes_travel s
  rw [e]
  exact h

theorem closeWithhold_harmless {k} (h : Writeless cp u b lv s) : Writeless cp u b lv (closeWithhold k s) := by
  unfold closeWithhold
  split <;> exact h

theorem withholdServed_harmless {a} (h : Writeless cp u b lv s) : Writeless cp u b lv (withholdServed a s) :=
  beginServed_harmless (endUse_harmless (dropReseat_harmless (closeWithhold_harmless h))) (by simp)

theorem withholdLive_harmless {k a} (h : Writeless cp u b lv s) : Writeless cp u b lv (withholdLive k a s) :=
  beginLive_harmless (dropReseat_harmless (closeWithhold_harmless h)) (by simp)

theorem demoteJob_harmless {a} (h : Writeless cp u b lv s) : Writeless cp u b lv (demoteJob a s) := by
  have hr : Writeless cp u b lv (reorder (demoted a) s) := reorder_harmless h
  unfold demoteJob
  dsimp only
  split
  · exact ite_harmless (giveUp_harmless hr) hr
  · exact hr

theorem endWithholdDemoting_harmless {k} (h : Writeless cp u b lv s) : Writeless cp u b lv (endWithholdDemoting k s) := by
  unfold endWithholdDemoting
  split
  · exact h
  · exact withholdLive_harmless (demoteJob_harmless h)

/-! ### The ends of jobs, and rungs -/

theorem endRecovered_harmless {a m f} (h : Writeless cp u b lv s) : Writeless cp u b lv (endRecovered a m f s) := by
  unfold endRecovered
  split
  · exact h
  · refine ite_harmless (withholdServed_harmless (removeJob_harmless ?_)) (removeJob_harmless ?_)
    · exact changeHead_harmless (settleInNewSlot_harmless h)
    · exact changeHead_harmless (settleInNewSlot_harmless h)

theorem endLost_harmless {a k} (h : Writeless cp u b lv s) : Writeless cp u b lv (endLost a k s) := by
  unfold endLost
  split
  · exact h
  · refine ite_harmless (withholdLive_harmless (removeJob_harmless ?_)) (removeJob_harmless ?_)
    · exact changeHead_harmless (logIncident_harmless (settleInNewSlot_harmless h))
    · exact changeHead_harmless (logIncident_harmless (settleInNewSlot_harmless h))

theorem arriveRung_harmless {a} (h : Writeless cp u b lv s) : Writeless cp u b lv (arriveRung a s) := by
  unfold arriveRung
  split
  · exact h
  · exact ite_harmless (endLost_harmless (ite_harmless h h)) (ite_harmless h h)

theorem startRung_harmless {a} (h : Writeless cp u b lv s) : Writeless cp u b lv (startRung a s) := by
  have hr : Writeless cp u b lv (arriveRung a s) := arriveRung_harmless h
  unfold startRung
  dsimp only
  split
  · exact hr
  · exact ite_harmless hr hr

theorem goToRung_harmless (h : Writeless cp u b lv s) : Writeless cp u b lv (goToRung s) := by
  rcases goToRung_changes s with e | ⟨t, e⟩
  · rw [e]; exact h
  · rw [e]; exact h

theorem failRung_harmless {a f} (h : Writeless cp u b lv s) : Writeless cp u b lv (failRung a f s) := by
  unfold failRung
  split
  · exact h
  · split
    · exact endLost_harmless h
    · exact ite_harmless (goToRung_harmless (startRung_harmless h)) (startRung_harmless h)

theorem endRung_harmless {a r} (h : Writeless cp u b lv s) : Writeless cp u b lv (endRung a r s) := by
  unfold endRung
  split
  · split
    · exact h
    · exact handVote_harmless h
  · exact failRung_harmless h

theorem chargeRead_harmless {a} (h : Writeless cp u b lv s) : Writeless cp u b lv (chargeRead a s) := by
  unfold chargeRead
  dsimp only
  split
  · exact ite_harmless (endRung_harmless h) h
  · exact h

theorem enqueueJob_harmless {j} (h : Writeless cp u b lv s) : Writeless cp u b lv (enqueueJob j s) :=
  startRung_harmless (reorder_harmless h)

theorem admitSector_harmless {a c o} (h : Writeless cp u b lv s) : Writeless cp u b lv (admitSector a c o s) :=
  ite_harmless h (enqueueJob_harmless h)

theorem requestJob_harmless {a c o} (h : Writeless cp u b lv s) : Writeless cp u b lv (requestJob a c o s) := by
  unfold requestJob
  split
  · exact h
  · exact admitSector_harmless h

/-! ### Episodes and grants -/

theorem startEpisode_harmless (h : Writeless cp u b lv s) : Writeless cp u b lv (startEpisode s) :=
  issueOrder_harmless (abandonCapture_harmless h) (by simp)

theorem jobPositionFailure_harmless {a} (h : Writeless cp u b lv s) : Writeless cp u b lv (jobPositionFailure a s) := by
  unfold jobPositionFailure
  split
  · exact h
  · refine ite_harmless (ite_harmless (withholdLive_harmless (reorder_harmless ?_)) (reorder_harmless ?_))
      (endLost_harmless h)
    · exact giveUp_harmless h.noCopies
    · exact giveUp_harmless h.noCopies

theorem takeUpRung_harmless {a} (h : Writeless cp u b lv s) : Writeless cp u b lv (takeUpRung a s) := by
  unfold takeUpRung
  split
  · exact ite_harmless (endRung_harmless h) (goToRung_harmless h)
  · exact h

theorem grantHead_harmless (h : Writeless cp u b lv s) : Writeless cp u b lv (grantHead s) := by
  unfold grantHead
  split
  · exact h
  next j _ =>
    have ht : Writeless cp u b lv (takeUpRung j.addr (startRung j.addr
        (updateJob j.addr (fun j => { j with state := .active }) (setHolder .recovery s)))) :=
      takeUpRung_harmless (startRung_harmless (setHolder_harmless h))
    exact ite_harmless (startEpisode_harmless ht) ht

theorem handOver_harmless (h : Writeless cp u b lv s) : Writeless cp u b lv (handOver s) := by
  have ho := h.onward (fun o => { o with phase := .awaitingMatch }) fun _ => rfl
  unfold handOver
  dsimp only
  split
  · exact ite_harmless
      (ite_harmless (startEpisode_harmless (setHolder_harmless ho)) (setHolder_harmless ho)) (grantHead_harmless ho)
  · exact ho

/-! ### The sweep -/

theorem grantSweep_harmless (h : Writeless cp u b lv s) : Writeless cp u b lv (grantSweep s) :=
  have hs : Writeless cp u b lv (setHolder .sweep s) := setHolder_harmless h
  ite_harmless (giveUp_harmless hs) (ite_harmless (startEpisode_harmless hs) hs)

theorem leaveTrack_harmless (h : Writeless cp u b lv s) : Writeless cp u b lv (leaveTrack s) := giveUp_harmless h

theorem endTrack_harmless (h : Writeless cp u b lv s) : Writeless cp u b lv (endTrack s) :=
  ite_harmless (giveUp_harmless h) (ite_harmless (giveUp_harmless h) (leaveTrack_harmless h))

theorem runSweep_harmless (h : Writeless cp u b lv s) : Writeless cp u b lv (runSweep s) := by
  unfold runSweep
  split
  · exact endTrack_harmless h
  · exact issueOrder_harmless h (by simp)

theorem afterSweepCapture_harmless (h : Writeless cp u b lv s) : Writeless cp u b lv (afterSweepCapture s) :=
  ite_harmless (endTrack_harmless h) h

theorem sweepRequest_harmless {a} (h : Writeless cp u b lv s) : Writeless cp u b lv (sweepRequest a s) := by
  unfold sweepRequest
  refine ite_harmless h ?_
  split
  · exact h
  · exact admitSector_harmless h

/-! ### Positioning and the acts of settling -/

theorem travelStep_harmless {o m t} (h : Writeless cp u b lv s) (ho : b → ∀ k, o ≠ .targetWrite k) :
    Writeless cp u b lv (travelStep o m t s) := by
  have hc : Writeless cp u b lv (if !t.stepped && s.drv.lines.positionError then issueOrder .clear s else s) :=
    ite_harmless (issueOrder_harmless h (by simp)) h
  exact issueStep_harmless (s := { (if !t.stepped && s.drv.lines.positionError then issueOrder .clear s else s) with
    drv.travel := some { t with stepped := true } }) hc ho

/-- A live write's target is the one order that writes, and where `b` holds there is no live write (R17, R32). -/
theorem issueTarget_harmless (h : Writeless cp u b lv s) : Writeless cp u b lv (issueTarget s) := by
  unfold issueTarget
  split
  · exact h
  next o ho =>
    have hn : Harmless cp u b lv (some { o with phase := .awaitingMatch }) s.drv.heldOrders s.out s.seq.copies
        s.drv.lines.ready :=
      h.newOp fun hb => h.op hb o ho
    split
    · exact issueOrder_harmless hn (by simp)
    next hk => exact harmless_append hn fun hb => absurd hk (h.op hb o ho)
    · exact hn

theorem arrive_harmless {t} (h : Writeless cp u b lv s) : Writeless cp u b lv (arrive t s) := by
  unfold arrive
  split
  · exact issueTarget_harmless h
  · exact handOver_harmless h
  · exact h
  · exact h

theorem makeMove_harmless {t} (h : Writeless cp u b lv s) : Writeless cp u b lv (makeMove t s) := by
  unfold makeMove
  split
  · split
    · exact h
    · exact arrive_harmless h
  · dsimp only
    split
    · exact ite_harmless (issueOrder_harmless h (by simp)) h
    · exact travelStep_harmless h (by simp)
    · exact travelStep_harmless h (by simp)
    · exact ite_harmless h (travelStep_harmless h (by simp))
    · exact ite_harmless h (issueOrder_harmless h (by simp))
    · exact h.noCopies
    · exact ite_harmless h (ite_harmless (travelStep_harmless h (by simp)) (issueOrder_harmless h (by simp)))

theorem travelFails_harmless {m t} (h : Writeless cp u b lv s) : Writeless cp u b lv (travelFails m t s) := by
  unfold travelFails
  have hreseat := (closeWithhold_harmless (k := .reseatFailed) h).noOp
  split
  · exact endUse_harmless hreseat
  · exact endUse_harmless hreseat
  all_goals
    split
    · exact ite_harmless h h
    · refine ite_harmless (leaveTrack_harmless h) ?_
      split
      · exact jobPositionFailure_harmless h
      · exact h

theorem readSector_harmless {j} (h : Writeless cp u b lv s) : Writeless cp u b lv (readSector j s) :=
  ite_harmless (endLost_harmless h) (issueOrder_harmless h (by simp))

theorem runJob_harmless (h : Writeless cp u b lv s) : Writeless cp u b lv (runJob s) := by
  unfold runJob
  split
  · exact ite_harmless (endRung_harmless h) (readSector_harmless h)
  · exact h

theorem beginRest_harmless (h : Writeless cp u b lv s) : Writeless cp u b lv (beginRest s) :=
  endWithholdDemoting_harmless (ite_harmless (giveUp_harmless (interruptSweep_harmless h)) h)

theorem relayOrder_harmless (h : Writeless cp u b lv s) : Writeless cp u b lv (relayOrder s) := by
  unfold relayOrder
  split
  · exact h
  next o rest ho =>
    have hs : Writeless cp u b lv { s with drv.heldOrders := rest } :=
      { h with held := fun hu x hx => h.held hu x (by simp [ho, hx]) }
    have hw : b → ∀ k, o ≠ .targetWrite k := fun hb => h.held (h.within hb) o (by simp [ho])
    exact ite_harmless (issueStep_harmless hs hw) (endUse_harmless (issueOrder_harmless hs hw))

theorem passDrive_harmless (h : Writeless cp u b lv s) : Writeless cp u b lv (passDrive s) := by
  unfold passDrive
  split
  · exact h
  · exact setHolder_harmless h
  · exact setHolder_harmless h

theorem doAct_harmless (x : Act) (s : State) (h : Writeless cp u b lv s) : Writeless cp u b lv (doAct x s) := by
  cases x
  case pass => exact passDrive_harmless h
  case restMeetsWithhold | limitEnds => exact endWithholdDemoting_harmless h
  case restBegins => exact beginRest_harmless h
  case sweepYields => exact giveUp_harmless (interruptSweep_harmless h)
  case relay => exact relayOrder_harmless h
  case reseat => exact h
  case move =>
    dsimp only [doAct]
    split
    · exact makeMove_harmless h
    · exact h
  case job => exact runJob_harmless h
  case sweepTarget => exact runSweep_harmless h
  case grantRecovery => exact grantHead_harmless h
  case grantSweep => exact grantSweep_harmless h

theorem settle_harmless (h : Writeless cp u b lv s) : Writeless cp u b lv (settle s) := settle_induct doAct_harmless h

end Sys2Proof.Machine
end

section
/-!
PROOFS. The rules over every command that say what reaches the drive (R17, R34), what moves the view (R18), what the recent
orders take (R35) and what bounds the capture set (R68): the events, the orders and the service commands, each by the
operations it is made of.
-/

namespace Sys2Proof.Machine

variable {cp u b : Prop} {lv : Option Bool} {s : State}

/-! ### The LOST judgement and the drive's events -/

theorem lostClear_harmless (h : Writeless cp u b lv s) : Writeless cp u b lv (lostClear s) :=
  ite_harmless (ite_harmless h (issueOrder_harmless h (by simp))) h

theorem headLosesDrive_harmless (h : Writeless cp u b lv s) : Writeless cp u b lv (headLosesDrive s) := by
  unfold headLosesDrive
  dsimp only
  split
  · exact h.noCopies
  · exact ite_harmless h.noCopies h.noCopies

theorem operationLosesDrive_harmless (h : Writeless cp u b lv s) : Writeless cp u b lv (operationLosesDrive s) := by
  unfold operationLosesDrive
  split
  · exact h
  · split
    · exact (closeWithhold_harmless h).noOp
    · exact ite_harmless h h.noOp
    · exact ite_harmless h h.noOp
    all_goals exact h

theorem passiveGoesOn_harmless (h : Writeless cp u b lv s) : Writeless cp u b lv (passiveGoesOn s) :=
  ite_harmless (ite_harmless (takeDrive_harmless h) h) h.noneHeld

theorem partyLosesDrive_harmless (h : Writeless cp u b lv s) : Writeless cp u b lv (partyLosesDrive s) :=
  setHolder_harmless (s := { headLosesDrive (dropWork (interruptSweep s)) with
    drv.step := none, drv.passOn := .stays, drv.quietDue := none })
    (headLosesDrive_harmless (dropWork_harmless (interruptSweep_harmless h)))

theorem judgeLost_harmless (h : Writeless cp u b lv s) : Writeless cp u b lv (judgeLost s) :=
  passiveGoesOn_harmless (lostClear_harmless (logIncident_harmless
    (s := startGenerator (operationLosesDrive (partyLosesDrive s)))
    (operationLosesDrive_harmless (partyLosesDrive_harmless h))))

theorem relayedEnds_harmless {ok} (h : Writeless cp u b lv s) : Writeless cp u b lv (relayedEnds ok s) :=
  endUse_harmless (ite_harmless (ite_harmless h h) h)

theorem stepCompletes_harmless (h : Writeless cp u b lv s) : Writeless cp u b lv (stepCompletes s) := by
  unfold stepCompletes
  split
  · exact h
  · exact ite_harmless (relayedEnds_harmless (completeStep_harmless h)) (completeStep_harmless h)

theorem stepFails_harmless (h : Writeless cp u b lv s) : Writeless cp u b lv (stepFails s) := by
  unfold stepFails
  split
  · exact h
  · dsimp only
    split
    · exact relayedEnds_harmless h
    · refine ite_harmless ?_ h
      split
      · exact travelFails_harmless h
      · exact h

/-! ### The ends of captures -/

theorem promoteLive_harmless {a f} (h : Writeless cp u b lv s) : Writeless cp u b lv (promoteLive a f s) := by
  unfold promoteLive
  split
  · exact h
  · split
    · exact endRecovered_harmless h
    all_goals exact h

theorem liveFull_harmless {a f} (h : Writeless cp u b lv s) : Writeless cp u b lv (liveFull a f s) :=
  ite_harmless (ite_harmless (changeHead_harmless h) (promoteLive_harmless (changeHead_harmless h)))
    (ite_harmless (changeHead_harmless h) (requestJob_harmless (changeHead_harmless h)))

/-- However many copies are held, a copy added leaves at most 7 (R67, R68). -/
theorem addCopy_length (f : Field) (copies : List Field) : (addCopy f copies).length ≤ 7 := by
  simp only [addCopy, Config.copyRoom, List.length_drop]
  omega

theorem recoveryFull_harmless {a f} (h : Writeless cp u b lv s) : Writeless cp u b lv (recoveryFull a f s) :=
  ite_harmless (endRecovered_harmless h) (chargeRead_harmless { h with copies := fun _ => addCopy_length _ _ })

theorem sweepFull_harmless {a f} (h : Writeless cp u b lv s) : Writeless cp u b lv (sweepFull a f s) :=
  afterSweepCapture_harmless (ite_harmless (changeHead_harmless h) (sweepRequest_harmless h))

theorem sweepShort_harmless {a} (h : Writeless cp u b lv s) : Writeless cp u b lv (sweepShort a s) := by
  refine afterSweepCapture_harmless ?_
  split <;> exact h

theorem captureEndsFull_harmless {c f r} (h : Writeless cp u b lv s) : Writeless cp u b lv (captureEndsFull c f r s) := by
  unfold captureEndsFull
  dsimp only
  split
  · exact liveFull_harmless (harmless_append h fun _ => writesNothing_relay)
  · exact recoveryFull_harmless (lowerReadGate_harmless h)
  · exact sweepFull_harmless (lowerReadGate_harmless h)

theorem captureEndsShort_harmless {c} (h : Writeless cp u b lv s) : Writeless cp u b lv (captureEndsShort c s) := by
  unfold captureEndsShort
  dsimp only
  split
  · exact h
  · exact chargeRead_harmless (lowerReadGate_harmless h)
  · exact sweepShort_harmless (lowerReadGate_harmless h)

/-! ### Marks and levels -/

theorem relayMatch_harmless (h : Writeless cp u b lv s) : Writeless cp u b lv (relayMatch s) := by
  unfold relayMatch
  split
  · exact h
  next o ho =>
    have hn : Harmless cp u b lv (some { o with phase := .awaitingGate }) s.drv.heldOrders s.out s.seq.copies
        s.drv.lines.ready :=
      h.newOp fun hb => h.op hb o ho
    exact ite_harmless (harmless_append hn fun _ => writesNothing_matchPulse) h

theorem relayIndex_harmless (h : Writeless cp u b lv s) : Writeless cp u b lv (relayIndex s) :=
  harmless_append h fun _ => writesNothing_index

theorem judgeIndex_harmless (h : Writeless cp u b lv s) : Writeless cp u b lv (judgeIndex s) := by
  unfold judgeIndex
  split
  · exact relayIndex_harmless h
  · exact ite_harmless (ite_harmless h (relayIndex_harmless h)) h

theorem indexAtCapture_harmless (h : Writeless cp u b lv s) : Writeless cp u b lv (indexAtCapture s) := by
  unfold indexAtCapture
  split
  · exact h
  · exact ite_harmless h (ite_harmless h (captureEndsShort_harmless h))

theorem indexAtSweep_harmless (h : Writeless cp u b lv s) : Writeless cp u b lv (indexAtSweep s) := ite_harmless h h

theorem faultAtHolder_harmless (h : Writeless cp u b lv s) : Writeless cp u b lv (faultAtHolder s) :=
  ite_harmless (startEpisode_harmless h) h

theorem resumeAfterFault_harmless {e} (h : Writeless cp u b lv s) : Writeless cp u b lv (resumeAfterFault e s) := by
  unfold resumeAfterFault
  dsimp only
  split
  · exact travelFails_harmless (ite_harmless h h)
  · exact ite_harmless (ite_harmless h h) (ite_harmless h h)

/-! ### The controller's orders -/

theorem lowerLiveReadGate_harmless (h : Writeless cp u b lv s) : Writeless cp u b lv (lowerLiveReadGate s) := by
  unfold lowerLiveReadGate
  split
  · exact ite_harmless (lowerReadGate_harmless h) (ite_harmless h (lowerReadGate_harmless h))
  · exact lowerReadGate_harmless h

theorem stopSending_harmless {o} (h : Writeless cp u b lv s) : Writeless cp u b lv (stopSending o s) :=
  ite_harmless (emit_harmless h fun _ => writesNothing_serveEnds) h

theorem endOperation_harmless (h : Writeless cp u b lv s) : Writeless cp u b lv (endOperation s) := by
  unfold endOperation
  split
  · exact h
  · dsimp only
    split
    · exact stopSending_harmless h.noOp
    · exact stopSending_harmless h.noOp
    · exact h.noOp
    · exact h.noOp
    · exact endUse_harmless (dropReseat_harmless (lowerLiveReadGate_harmless h.noOp))
    · exact endUse_harmless (dropReseat_harmless (lowerWriteGate_harmless h.noOp))
    · exact h.noOp

theorem endWithholdByOrder_harmless (h : Writeless cp u b lv s) : Writeless cp u b lv (endWithholdByOrder s) := by
  unfold endWithholdByOrder
  split
  · exact h
  · exact endUse_harmless (demoteJob_harmless (dropReseat_harmless (closeWithhold_harmless h)))

theorem updateView_harmless {o} (h : Writeless cp u b lv s) : Writeless cp u b lv (updateView o s) := by
  cases o <;> exact h

theorem takeOrder_harmless {o} (h : Writeless cp u b lv s) : Writeless cp u b lv (takeOrder o s) :=
  have hv := updateView_harmless (o := o) (endWithholdByOrder_harmless (endOperation_harmless h))
  ite_harmless hv hv

/-- Of the orders, none but a target write adds one to those that wait to be relayed (R20). -/
theorem relay_harmless {o} (h : Writeless cp u b lv s) (ho : ∀ k, o ≠ .targetWrite k) : Writeless cp u b lv (relay o s) := by
  refine takeDrive_harmless { h with held := fun hu x hx => ?_ }
  rcases List.mem_append.1 hx with hx | hx
  · exact h.held hu x hx
  · rw [List.mem_singleton.1 hx]
    exact ho

theorem positionView_harmless (h : Writeless cp u b lv s) : Writeless cp u b lv (positionView s) := by
  refine ite_harmless h (ite_harmless ?_ h)
  dsimp only
  split <;> exact h

theorem actPosition_harmless {o} (h : Writeless cp u b lv s) (ho : ∀ k, o ≠ .targetWrite k) : Writeless cp u b lv (actPosition o s) :=
  ite_harmless (relay_harmless h ho) (positionView_harmless h)

theorem actHead_harmless {n} (h : Writeless cp u b lv s) : Writeless cp u b lv (actHead n s) :=
  ite_harmless (relay_harmless h (by simp)) h

theorem actMargin_harmless {st off old} (h : Writeless cp u b lv s) : Writeless cp u b lv (actMargin st off old s) := by
  refine ite_harmless (ite_harmless h (relay_harmless (ite_harmless h h) (by simp))) (ite_harmless h ?_)
  split
  · exact h
  · exact ite_harmless h h

theorem actClear_harmless (h : Writeless cp u b lv s) : Writeless cp u b lv (actClear s) :=
  ite_harmless h (ite_harmless (relay_harmless h (by simp)) (ite_harmless (relay_harmless h (by simp)) h))

theorem beginWithhold_harmless {a} (h : Writeless cp u b lv s) : Writeless cp u b lv (beginWithhold a s) :=
  takeDrive_harmless ((reorder_harmless h).newOp (o := newOp .withheld a .awaitingDrive) fun _ => by simp [newOp])

theorem decideRead_harmless {a} (h : Writeless cp u b lv s) : Writeless cp u b lv (decideRead a s) := by
  unfold decideRead
  split
  · exact beginLive_harmless h (by simp)
  · split
    · exact ite_harmless (beginWithhold_harmless h) (beginLive_harmless h (by simp))
    · exact beginLive_harmless h (by simp)
    · exact beginServed_harmless h (by simp)
    · exact beginServed_harmless h (by simp)

theorem actTargetRead_harmless {k} (h : Writeless cp u b lv s) : Writeless cp u b lv (actTargetRead k s) := by
  refine ite_harmless h (ite_harmless (beginServed_harmless h (by simp)) ?_)
  split
  · exact beginLive_harmless h (by simp)
  · exact h
  · exact ite_harmless (decideRead_harmless h) h

/-- A live write begins in PASSIVE mode alone (R28). -/
theorem actTargetWrite_harmless {k} (h : Writeless cp u b lv s) (hb : b → s.svc.mode ≠ .passive) :
    Writeless cp u b lv (actTargetWrite k s) := by
  refine ite_harmless h (ite_harmless (beginServed_harmless h (by simp)) ?_)
  split
  next hm => exact beginLive_harmless h fun hp => absurd hm (hb hp)
  · exact h
  · exact ite_harmless (beginServed_harmless h (by simp)) h

/-- What an order does once it is taken (R19 to R28); `old` is the view offset before it. -/
def actOrder (old : Offset) (o : Order) (s : State) : State :=
  match o with
  | .position c => actPosition (.position c) s
  | .head n => actHead n s
  | .ret => actPosition .ret s
  | .margin st off => actMargin st off old s
  | .targetRead k => actTargetRead k s
  | .targetWrite k => actTargetWrite k s
  | .clear => actClear s

/-- Each of the seven orders is taken, acts, and sets off what is then due. -/
theorem exec_order {c : Instr} {dt : Nat} {o : Order} (h : orderOf c = some (dt, o)) (s : State) :
    exec c s = .next (settle (actOrder s.ctl.offset o (takeOrder o (begin dt s)))) := by
  cases c <;> cases h <;> rfl

theorem actOrder_keepsGiven {old o} (s : State) : KeepsGiven s (actOrder old o s) := by
  cases o <;> simp [actOrder]

theorem actOrder_harmless {old o} (h : Writeless cp u b lv s) (hb : ∀ k, o = .targetWrite k → b → s.svc.mode ≠ .passive) :
    Writeless cp u b lv (actOrder old o s) := by
  cases o
  case position => exact actPosition_harmless h (by simp)
  case head => exact actHead_harmless h
  case ret => exact actPosition_harmless h (by simp)
  case margin => exact actMargin_harmless h
  case targetRead => exact actTargetRead_harmless h
  case targetWrite => exact actTargetWrite_harmless h (hb _ rfl)
  case clear => exact actClear_harmless h

/-! ### Gates, written fields and timers -/

theorem endField_harmless (h : Writeless cp u b lv s) : Writeless cp u b lv (endField s) := h.onward _ fun _ => rfl

theorem overlay_harmless {a f} (h : Writeless cp u b lv s) : Writeless cp u b lv (overlay a f s) := by
  unfold overlay
  split
  · exact settleInNewSlot_harmless h
  · split
    · exact cancelJob_harmless (settleInNewSlot_harmless h)
    · exact h

/-- Where no live write stands the write path is closed (R34). -/
theorem writePathOpen_of_noWrite (h : ∀ o, s.ctl.op = some o → o.kind ≠ .liveWrite) : writePathOpen s = false := by
  unfold writePathOpen
  split
  next o ho => simp [h o ho]
  · rfl

theorem passBits_harmless {bits} (h : Writeless cp u b lv s) : Writeless cp u b lv (passBits bits s) := by
  by_cases hb : b
  · rw [passBits, if_neg fun hw => by simp [writePathOpen_of_noWrite (h.op hb)] at hw]
    exact h
  · exact ite_harmless (emit_harmless h fun hb' => absurd hb' hb) h

theorem transfer_harmless {o} (h : Writeless cp u b lv s) (ho : s.ctl.op = some o) : Writeless cp u b lv (transfer o s) :=
  h.newOp fun hb => h.op hb o ho

theorem matched_harmless {o} (h : Writeless cp u b lv s) (ho : s.ctl.op = some o) : Writeless cp u b lv (matched o s) := by
  refine harmless_append (h.newOp (o := { o with phase := .awaitingGate, matchDue := none, built := _ })
    fun hb => h.op hb o ho) fun _ => writesNothing_matchPulse

theorem quietPasses_harmless (h : Writeless cp u b lv s) : Writeless cp u b lv (quietPasses s) :=
  ite_harmless h (ite_harmless (ite_harmless h (setHolder_harmless h)) h)

theorem limitPasses_harmless (h : Writeless cp u b lv s) : Writeless cp u b lv (limitPasses s) :=
  ite_harmless h (endWithholdDemoting_harmless h)

theorem voteFails_harmless {a} (h : Writeless cp u b lv s) : Writeless cp u b lv (voteFails a s) := by
  unfold voteFails
  split
  · exact h
  · exact failRung_harmless h

theorem takeOutcome_harmless {v} (h : Writeless cp u b lv s) : Writeless cp u b lv (takeOutcome v s) := by
  unfold takeOutcome
  dsimp only
  split
  · exact endRecovered_harmless h
  · exact endRecovered_harmless h
  all_goals exact voteFails_harmless h

end Sys2Proof.Machine
end

section
/-!
PROOFS. The service commands, and the rules over every command: what reaches the drive (R17, R34), the view (R18), the
recent orders (R35) and the copies (R68).
-/

namespace Sys2Proof.Machine

/-- Nothing that writes to the drive has been added, and view and recent orders are those of `v`. -/
abbrev Undisturbed (cp u b : Prop) (v s : State) : Prop := Writeless cp u b none s ∧ KeepsView v s

variable {cp u b : Prop} {v s : State}

theorem Undisturbed.after (h : Undisturbed cp u b v s) {t : State} (ht : Writeless cp u b none t) (hv : KeepsGiven s t) :
    Undisturbed cp u b v t := by
  obtain ⟨-, hs⟩ := h
  obtain ⟨-, ht'⟩ := hv
  exact ⟨ht, by simp [ht', hs]⟩

theorem Undisturbed.of_eq (h : Undisturbed cp u b v s) {t : State} (e : t = s) : Undisturbed cp u b v t := e.symm ▸ h

theorem settle_undisturbed (h : Undisturbed cp u b v s) : Undisturbed cp u b v (settle s) :=
  h.after (settle_harmless h.1) (settle_keepsGiven s)

/-! ### The service commands -/

theorem setGeometryReply_undisturbed {c n k} (h : Undisturbed cp u b v s) :
    Undisturbed cp u b v (setGeometryReply c n k s).1 := by
  unfold setGeometryReply
  repeat' split
  all_goals exact h

theorem setParametersReply_undisturbed {m a1 a2 a3 a4 a5} (h : Undisturbed cp u b v s) :
    Undisturbed cp u b v (setParametersReply m a1 a2 a3 a4 a5 s).1 := by
  unfold setParametersReply limiterActs
  dsimp only
  repeat' split
  all_goals exact h

theorem loadZoneReply_undisturbed {k n lo hi l} (h : Undisturbed cp u b v s) :
    Undisturbed cp u b v (loadZoneReply k n lo hi l s).1 := by
  unfold loadZoneReply
  split <;> exact h

theorem clearZoneReply_undisturbed {k} (h : Undisturbed cp u b v s) : Undisturbed cp u b v (clearZoneReply k s).1 := by
  unfold clearZoneReply
  split <;> exact h

theorem setLadderHeaderReply_undisturbed {k m l n} (h : Undisturbed cp u b v s) :
    Undisturbed cp u b v (setLadderHeaderReply k m l n s).1 := by
  unfold setLadderHeaderReply
  split <;> exact h

theorem loadRungReply_undisturbed {k i r0 r1} (h : Undisturbed cp u b v s) : Undisturbed cp u b v (loadRungReply k i r0 r1 s).1 := by
  unfold loadRungReply
  dsimp only
  repeat' split
  all_goals exact h

theorem clearLadderReply_undisturbed {k} (h : Undisturbed cp u b v s) : Undisturbed cp u b v (clearLadderReply k s).1 := by
  unfold clearLadderReply
  split <;> exact h

theorem setHeadReply_undisturbed {n m th sc} (h : Undisturbed cp u b v s) : Undisturbed cp u b v (setHeadReply n m th sc s).1 := by
  unfold setHeadReply
  split
  · exact h
  · exact h.after (changeHead_harmless h.1) (changeHead_keepsGiven s)

theorem replaceSweep_undisturbed {w} (h : Undisturbed cp u b v s) : Undisturbed cp u b v (replaceSweep w s) := by
  unfold replaceSweep
  dsimp only
  split
  · exact h.after (giveUp_harmless h.1) (giveUp_keepsGiven { s with sweep := w })
  · exact h

theorem startSweepReply_undisturbed {a l f p} (h : Undisturbed cp u b v s) : Undisturbed cp u b v (startSweepReply a l f p s).1 := by
  unfold startSweepReply
  repeat' split
  case h_2.isTrue => exact replaceSweep_undisturbed h
  all_goals exact h

theorem setSweepStopReply_undisturbed {p} (h : Undisturbed cp u b v s) : Undisturbed cp u b v (setSweepStopReply p s).1 := by
  unfold setSweepStopReply
  repeat' split
  all_goals exact h

theorem enqueueJob_undisturbed {j} (h : Undisturbed cp u b v s) : Undisturbed cp u b v (enqueueJob j s) :=
  h.after (enqueueJob_harmless h.1) (enqueueJob_keepsGiven s)

theorem queueSectorReply_undisturbed {a0 a1} (h : Undisturbed cp u b v s) :
    Undisturbed cp u b v (queueSectorReply a0 a1 s).1 := by
  unfold queueSectorReply
  split
  · exact h
  · refine addressed_keeps (P := Undisturbed cp u b v) h fun a => ?_
    unfold queueEntry
    split
    · split
      · exact h
      · exact h.after (admitSector_harmless h.1) (admitSector_keepsGiven s)
    · split
      · exact h
      · split
        · exact h
        · exact enqueueJob_undisturbed h
      · exact h
      · exact h

theorem releaseEntryReply_undisturbed {a0 a1} (h : Undisturbed cp u b v s) :
    Undisturbed cp u b v (releaseEntryReply a0 a1 s).1 := by
  refine addressed_keeps (P := Undisturbed cp u b v) h fun a => ?_
  split
  · exact h
  · have hd : Undisturbed cp u b v (dropEntry a s) := h.after (dropEntry_harmless h.1) (dropEntry_keepsGiven s)
    exact hd.after (cancelJob_harmless hd.1) (cancelJob_keepsGiven _)

theorem settleInNewSlot_undisturbed {a k f n w} (h : Undisturbed cp u b v s) :
    Undisturbed cp u b v (settleInNewSlot a k f n w s) :=
  h.after (settleInNewSlot_harmless h.1) (settleInNewSlot_keepsGiven s)

theorem importImage_undisturbed {a f} (h : Undisturbed cp u b v s) : Undisturbed cp u b v (importImage a f s).1 := by
  unfold importImage
  split
  · exact h
  · split
    · split
      · exact h
      · exact settleInNewSlot_undisturbed (s := addEntry ⟨a, .service, .pending⟩ s) h
    next e _ =>
      split
      · have hs : Undisturbed cp u b v (settleInNewSlot a (.recovered .imported) f (entryCounts s e).1 (entryCounts s e).2 s) :=
          settleInNewSlot_undisturbed h
        exact hs.after (cancelJob_harmless hs.1) (cancelJob_keepsGiven _)
      all_goals exact h

theorem laterPage_undisturbed {a p us} (h : Undisturbed cp u b v s) : Undisturbed cp u b v (laterPage a p us s).1 := by
  unfold laterPage
  split
  · exact h
  · split
    · exact h
    · split
      · exact h
      · exact importImage_undisturbed (s := dropStaging s) h

theorem importPageReply_undisturbed {a0 a1 p us} (h : Undisturbed cp u b v s) :
    Undisturbed cp u b v (importPageReply a0 a1 p us s).1 := by
  unfold importPageReply
  split
  · exact h
  · split
    · exact h
    · split
      · exact h
      · dsimp only
        split
        · exact h
        · exact laterPage_undisturbed h

theorem activateReply_undisturbed (h : Undisturbed cp u b v s) : Undisturbed cp u b v (activateReply s).1 := by
  unfold activateReply activateLines modeSettle
  repeat' split
  all_goals exact h

theorem captiveOnReply_undisturbed (h : Undisturbed cp u b v s) : Undisturbed cp u b v (captiveOnReply s).1 := by
  unfold captiveOnReply captiveLines
  repeat' split
  all_goals exact h

theorem captiveOffReply_undisturbed (h : Undisturbed cp u b v s) : Undisturbed cp u b v (captiveOffReply s).1 := by
  unfold captiveOffReply releaseLines
  repeat' split
  all_goals exact h

theorem passivateReply_undisturbed (h : Undisturbed cp u b v s) : Undisturbed cp u b v (passivateReply s).1 := by
  have hc : Undisturbed cp u b v (cancelAll s) := ⟨h.1.noCopies, h.2⟩
  have hg : Undisturbed cp u b v (giveUp (clearLimiter { cancelAll s with sweep := idleSweep s.sweep })) :=
    hc.after (giveUp_harmless hc.1) (giveUp_keepsGiven (clearLimiter { cancelAll s with sweep := idleSweep s.sweep }))
  unfold passivateReply releaseLines
  split
  · exact h
  · dsimp only
    split <;> exact hg

theorem answer_undisturbed {tag} {r : State × Reply} (h : Undisturbed cp u b v r.1) : Undisturbed cp u b v (answer tag r) := h

theorem runCommand_undisturbed (c : Instr) (h : Undisturbed cp u b v s) : Undisturbed cp u b v (runCommand c s) := by
  cases c
  case readHealth => exact answer_undisturbed (h.of_eq (readHealthReply_state s))
  case readLog => exact answer_undisturbed (h.of_eq (readLogReply_state s))
  case readLadder => exact answer_undisturbed (h.of_eq (readLadderReply_state s))
  case exportPage => exact answer_undisturbed (h.of_eq (exportPageReply_state s))
  case readMap => exact answer_undisturbed (h.of_eq (readMapReply_state s))
  case readQueue => exact answer_undisturbed (h.of_eq (readQueueReply_state s))
  case setGeometry => exact setGeometryReply_undisturbed h
  case setParameters => exact settle_undisturbed (setParametersReply_undisturbed h)
  case loadZone => exact loadZoneReply_undisturbed h
  case clearZone => exact clearZoneReply_undisturbed h
  case setLadderHeader => exact setLadderHeaderReply_undisturbed h
  case loadRung => exact loadRungReply_undisturbed h
  case clearLadder => exact clearLadderReply_undisturbed h
  case setHead => exact setHeadReply_undisturbed h
  case startSweep => exact settle_undisturbed (startSweepReply_undisturbed h)
  case setSweepStop => exact settle_undisturbed (setSweepStopReply_undisturbed h)
  case abortSweep => exact settle_undisturbed (replaceSweep_undisturbed h)
  case queueSector => exact settle_undisturbed (queueSectorReply_undisturbed h)
  case releaseEntry => exact settle_undisturbed (releaseEntryReply_undisturbed h)
  case importPage => exact settle_undisturbed (importPageReply_undisturbed h)
  case activate => exact settle_undisturbed (activateReply_undisturbed h)
  case captiveOn => exact captiveOnReply_undisturbed h
  case captiveOff => exact captiveOffReply_undisturbed h
  case passivate => exact settle_undisturbed (passivateReply_undisturbed h)
  all_goals exact h

theorem judgeField_undisturbed {f} (h : Undisturbed cp u b v s) : Undisturbed cp u b v (judgeField f s) := by
  unfold judgeField
  dsimp only
  repeat' split
  case h_2 => exact runCommand_undisturbed _ h
  all_goals exact h

theorem endField_undisturbed (h : Undisturbed cp u b v s) : Undisturbed cp u b v (endField s) :=
  h.after (endField_harmless h.1) (endField_keepsGiven s)

theorem onFrame_undisturbed {act : State → State} (hact : ∀ t, Undisturbed cp u b v t → Undisturbed cp u b v (act t))
    (h : Undisturbed cp u b v s) : Undisturbed cp u b v (onFrame act s) := by
  unfold onFrame
  split
  · exact hact _ (endField_undisturbed h)
  · exact h

/-! ### Every command -/

/-- A command begins with nothing driven, so what was driven before it does not matter. -/
theorem begin_undisturbed {dt} (h : Writeless cp u b none { s with out := [] }) : Undisturbed cp u b s (begin dt s) :=
  ⟨begin_harmless h, (begin_keepsGiven s).2⟩

theorem beginAt_undisturbed {t} (h : Writeless cp u b none { s with out := [] }) : Undisturbed cp u b s (beginAt t s) :=
  begin_undisturbed h

theorem beginNow_undisturbed (h : Writeless cp u b none { s with out := [] }) : Undisturbed cp u b s (beginNow s) :=
  ⟨h, rfl, rfl, rfl, rfl, rfl⟩

/-- Carrying a raw field, a command is taken as what the field spells (R14, R179). -/
theorem exec_field_undisturbed {c : Instr} (h : Writeless cp u b none { s with out := [] }) (hf : carriesField c = true) :
    LeadsTo (Undisturbed cp u b s) (exec c s) := by
  cases c
  case commandFrameRefused dt field =>
    exact leadsTo_next.2 (onFrame_undisturbed (fun _ ht => judgeField_undisturbed ht) (begin_undisturbed h))
  case writeFieldFull dt field =>
    have hb : Undisturbed cp u b s (endField (begin dt s)) := endField_undisturbed (begin_undisturbed h)
    simp only [exec, execWriteFieldFull]
    split
    · exact leadsTo_next.2 (begin_undisturbed h)
    next o ho =>
      have hop : (begin dt s).ctl.op = some o := by
        unfold writing at ho
        split at ho
        · cases ho
        · split at ho
          · cases ho; assumption
          · cases ho
      split
      · exact leadsTo_next.2 (settle_undisturbed (hb.after (overlay_harmless hb.1) (overlay_keepsGiven _)))
      next hk =>
        exact leadsTo_next.2 (hb.after (emit_harmless hb.1 fun hp => absurd hk ((begin_harmless h).op hp o hop)) (by simp))
      · split
        · exact leadsTo_next.2 (judgeField_undisturbed hb)
        · exact leadsTo_next.2 hb
  all_goals cases hf

theorem exec_readGate_undisturbed {dt} (h : Writeless cp u b none { s with out := [] }) :
    LeadsTo (Undisturbed cp u b s) (exec (.readGate dt) s) := by
  have hb := begin_undisturbed (dt := dt) h
  simp only [exec, execReadGate]
  split
  · exact leadsTo_next.2 hb
  next o ho =>
    have ht : Undisturbed cp u b s (transfer o (begin dt s)) := hb.after (transfer_harmless hb.1 ho) (transfer_keepsGiven _)
    split
    · split
      · exact leadsTo_next.2 (ht.after (emit_harmless (s := { transfer o (begin dt s) with drv.readGate := true }) ht.1
          fun _ => writesNothing_readGate) (by simp))
      · exact leadsTo_next.2 (ht.after (emit_harmless ht.1 fun _ => by simp) (by simp))
    · exact leadsTo_next.2 hb

/-- WRITE GATE is raised on the drive for a live write alone (R34). -/
theorem exec_writeGate_undisturbed {dt} (h : Writeless cp u b none { s with out := [] }) :
    LeadsTo (Undisturbed cp u b s) (exec (.writeGate dt) s) := by
  have hb := begin_undisturbed (dt := dt) h
  simp only [exec, execWriteGate]
  split
  · exact leadsTo_next.2 hb
  next o ho =>
    have ht : Undisturbed cp u b s (transfer o (begin dt s)) := hb.after (transfer_harmless hb.1 ho) (transfer_keepsGiven _)
    have hop : b → o.kind ≠ .liveWrite := fun hp => hb.1.op hp o ho
    split
    · split
      · split
        · exact leadsTo_next.2 ht
        · exact leadsTo_next.2 ⟨hb.1.newOp hop, hb.2⟩
      · exact leadsTo_next.2 ht
      next hk =>
        exact leadsTo_next.2 (ht.after (emit_harmless (s := { transfer o (begin dt s) with drv.writeGate := true }) ht.1
          fun hp => absurd hk (hop hp)) (by simp))
      all_goals exact leadsTo_next.2 hb
    · exact leadsTo_next.2 hb

theorem exec_gateFalls_undisturbed {dt : Nat} {tail : WriteTail} (h : Writeless cp u b none { s with out := [] }) :
    LeadsTo (Undisturbed cp u b s) (exec (.readGateFalls dt) s) ∧
      LeadsTo (Undisturbed cp u b s) (exec (.writeGateFalls tail) s) ∧
      LeadsTo (Undisturbed cp u b s) (exec (.writeClockTimeout tail) s) := by
  have ends : ∀ {t}, Undisturbed cp u b s t → Undisturbed cp u b s (settle (endOperation t)) := fun ht =>
    settle_undisturbed (ht.after (endOperation_harmless ht.1) (endOperation_keepsGiven _))
  have hb := begin_undisturbed (dt := dt) h
  have hp : Undisturbed cp u b s (passBits tail.bits (begin tail.dt s)) :=
    have ht := begin_undisturbed (dt := tail.dt) h
    ht.after (passBits_harmless ht.1) (passBits_keepsGiven _)
  simp only [exec, execReadGateFalls, execWriteGateFalls, execWriteClockTimeout]
  refine ⟨?_, ?_, ?_⟩
  · split
    · exact leadsTo_next.2 hb
    · split
      · exact leadsTo_next.2 (ends hb)
      · exact leadsTo_next.2 hb
  · split
    · exact leadsTo_next.2 hp
    · split
      · exact leadsTo_next.2 (ends hp)
      · exact leadsTo_next.2 hp
  · split
    · exact leadsTo_next.2 hp
    · exact leadsTo_next.2 (endField_undisturbed hp)

theorem exec_mark_undisturbed {dt : Nat} (h : Writeless cp u b none { s with out := [] }) :
    LeadsTo (Undisturbed cp u b s) (exec (.driveMatch dt) s) ∧ LeadsTo (Undisturbed cp u b s) (exec .generatedMatch s) ∧
      LeadsTo (Undisturbed cp u b s) (exec .generatedIndex s) ∧ LeadsTo (Undisturbed cp u b s) (exec (.driveIndex dt) s) := by
  have hb := begin_undisturbed (dt := dt) h
  have hc : ∀ c, Undisturbed cp u b s { begin dt s with drv.capture := c } := fun _ => hb
  simp only [exec, execDriveMatch, execGeneratedMatch, execGeneratedIndex, execDriveIndex]
  refine ⟨?_, ?_, ?_, leadsTo_next.2 (settle_undisturbed ?_)⟩
  · split
    · exact leadsTo_next.2 (hb.after (relayMatch_harmless hb.1) (relayMatch_keepsGiven _))
    next c _ =>
      split
      · exact leadsTo_next.2 hb
      · split
        · exact leadsTo_next.2 ((hc _).after (relayMatch_harmless hb.1) (relayMatch_keepsGiven _))
        all_goals
          exact leadsTo_next.2 (hb.after (emit_harmless
            (s := { begin dt s with drv.capture := some { c with matched := true }, drv.readGate := true }) hb.1
            fun _ => writesNothing_readGate) (by simp))
  · split
    · exact leadsTo_next.2 (beginNow_undisturbed h)
    next o ho =>
      split
      · exact leadsTo_next.2 (beginNow_undisturbed h)
      next t _ =>
        have ha := beginAt_undisturbed (t := t) h
        have hop : (beginAt t s).ctl.op = some o := by simpa [beginAt_eq_begin] using ho
        exact leadsTo_next.2 (ha.after (matched_harmless ha.1 hop) (matched_keepsGiven _))
  · split
    · exact leadsTo_next.2 (beginNow_undisturbed h)
    next t _ =>
      have ha := beginAt_undisturbed (t := t) h
      exact leadsTo_next.2 (ha.after (emit_harmless
        (s := { beginAt t s with drv.genNext := some (t + s.drv.genPeriod) }) ha.1
        fun _ => writesNothing_index) (by simp))
  · exact hb.after (indexAtSweep_harmless (indexAtCapture_harmless (judgeIndex_harmless
      (s := measureIndex (begin dt s)) hb.1))) (by simp)

theorem exec_level_undisturbed {dt : Nat} {level : Bool} (h : Writeless cp u b none { s with out := [] }) :
    LeadsTo (Undisturbed cp u b s) (exec (.driveReadyFalls dt) s) ∧ LeadsTo (Undisturbed cp u b s) (exec (.driveReadyRises dt) s) ∧
      LeadsTo (Undisturbed cp u b s) (exec (.driveFaultRises dt) s) ∧ LeadsTo (Undisturbed cp u b s) (exec (.driveFaultFalls dt) s) ∧
      LeadsTo (Undisturbed cp u b s) (exec (.driveProtectChanges dt level) s) := by
  have hb := begin_undisturbed (dt := dt) h
  simp only [exec, execDriveReadyFalls, execDriveReadyRises, execDriveFaultRises, execDriveFaultFalls,
    execDriveProtectChanges]
  refine ⟨?_, leadsTo_next.2 ?_, leadsTo_next.2 (settle_undisturbed ?_), ?_, leadsTo_next.2 hb⟩
  · split
    · exact leadsTo_next.2 (settle_undisturbed (hb.after (judgeLost_harmless (hb.1.anyReady false)) (by simp)))
    · exact leadsTo_next.2 (hb.after (hb.1.anyReady false) (by simp))
  · exact hb.after (lostClear_harmless (hb.1.anyReady true)) (by simp)
  · exact hb.after (lostClear_harmless (faultAtHolder_harmless hb.1)) (by simp)
  · split
    · exact leadsTo_next.2 hb
    · exact leadsTo_next.2 (settle_undisturbed (hb.after (resumeAfterFault_harmless hb.1) (by simp)))

theorem exec_capture_undisturbed {dt rate : Nat} {field : List Nat} (h : Writeless cp u b none { s with out := [] }) :
    LeadsTo (Undisturbed cp u b s) (exec (.captureFull dt field rate) s) ∧
      LeadsTo (Undisturbed cp u b s) (exec (.readClockTimeout dt) s) ∧
      LeadsTo (Undisturbed cp u b s) (exec (.servedTransferEnds dt) s) := by
  have hb := begin_undisturbed (dt := dt) h
  simp only [exec, execCaptureFull, execReadClockTimeout, execServedTransferEnds]
  refine ⟨?_, ?_, ?_⟩
  · split
    · exact leadsTo_next.2 hb
    · split
      · exact leadsTo_next.2 (settle_undisturbed (hb.after (captureEndsFull_harmless hb.1) (captureEndsFull_keepsGiven _)))
      · exact leadsTo_next.2 hb
  · split
    · exact leadsTo_next.2 hb
    · split
      · exact leadsTo_next.2 (settle_undisturbed (hb.after (captureEndsShort_harmless hb.1) (captureEndsShort_keepsGiven _)))
      · exact leadsTo_next.2 hb
  · split
    · exact leadsTo_next.2 hb
    · have he := endField_undisturbed hb
      split
      · exact leadsTo_next.2 (he.after (emit_harmless he.1
          fun _ => writesNothing_serveEnds) (by simp))
      · exact leadsTo_next.2 hb

theorem exec_stepEnd_undisturbed {dt : Nat} (h : Writeless cp u b none { s with out := [] }) :
    LeadsTo (Undisturbed cp u b s) (exec (.positioningStepCompletes dt) s) ∧
      LeadsTo (Undisturbed cp u b s) (exec (.positioningStepFails dt) s) ∧
      LeadsTo (Undisturbed cp u b s) (exec .positionTimeout s) ∧ LeadsTo (Undisturbed cp u b s) (exec .marginUnknownSettle s) := by
  have hb := begin_undisturbed (dt := dt) h
  have completes : ∀ {t}, Undisturbed cp u b s t → Undisturbed cp u b s (settle (stepCompletes t)) := fun ht =>
    settle_undisturbed (ht.after (stepCompletes_harmless ht.1) (stepCompletes_keepsGiven _))
  have fails : ∀ {t}, Undisturbed cp u b s t → Undisturbed cp u b s (settle (stepFails t)) := fun ht =>
    settle_undisturbed (ht.after (stepFails_harmless ht.1) (stepFails_keepsGiven _))
  simp only [exec, execPositioningStepCompletes, execPositioningStepFails, execPositionTimeout, execMarginUnknownSettle]
  refine ⟨leadsTo_next.2 (completes (t := { begin dt s with drv.lines.onCylinder := true }) hb),
    leadsTo_next.2 (fails (t := { begin dt s with drv.lines.positionError := true }) hb), ?_, ?_⟩
  · split
    · exact leadsTo_next.2 (beginNow_undisturbed h)
    · exact leadsTo_next.2 (fails (beginAt_undisturbed h))
  · split
    · exact leadsTo_next.2 (beginNow_undisturbed h)
    · split
      · exact leadsTo_next.2 (completes (beginAt_undisturbed h))
      · exact leadsTo_next.2 (beginNow_undisturbed h)

theorem exec_driveTimer_undisturbed (h : Writeless cp u b none { s with out := [] }) :
    LeadsTo (Undisturbed cp u b s) (exec .faultEpisodeTimeout s) ∧ LeadsTo (Undisturbed cp u b s) (exec .indexWatchdog s) ∧
      LeadsTo (Undisturbed cp u b s) (exec .viewSettle s) ∧ LeadsTo (Undisturbed cp u b s) (exec .quietInterval s) ∧
      LeadsTo (Undisturbed cp u b s) (exec .withholdLimit s) := by
  have now := beginNow_undisturbed h
  have ha : ∀ t, Undisturbed cp u b s (beginAt t s) := fun t => beginAt_undisturbed h
  simp only [exec, execFaultEpisodeTimeout, execIndexWatchdog, execViewSettle, execQuietInterval, execWithholdLimit]
  refine ⟨?_, ?_, ?_, ?_, ?_⟩
  · split
    · exact leadsTo_next.2 now
    · split
      · exact leadsTo_next.2 (settle_undisturbed ((ha _).after (judgeLost_harmless (ha _).1) (judgeLost_keepsGiven _)))
      · exact leadsTo_next.2 now
  · split
    · exact leadsTo_next.2 (settle_undisturbed ((ha _).after (judgeLost_harmless (ha _).1) (judgeLost_keepsGiven _)))
    · exact leadsTo_next.2 now
  · split
    · exact leadsTo_next.2 now
    · exact leadsTo_next.2 (ha _)
  · split
    · exact leadsTo_next.2 now
    · exact leadsTo_next.2 (settle_undisturbed ((ha _).after (quietPasses_harmless (ha _).1) (quietPasses_keepsGiven _)))
  · split
    · exact leadsTo_next.2 now
    · split
      · exact leadsTo_next.2 now
      · exact leadsTo_next.2 (settle_undisturbed ((ha _).after (limitPasses_harmless (ha _).1) (limitPasses_keepsGiven _)))

theorem exec_workTimer_undisturbed {dt : Nat} (h : Writeless cp u b none { s with out := [] }) :
    LeadsTo (Undisturbed cp u b s) (exec (.voteCompletes dt) s) ∧ LeadsTo (Undisturbed cp u b s) (exec .workDurationReached s) ∧
      LeadsTo (Undisturbed cp u b s) (exec .restEnds s) ∧ LeadsTo (Undisturbed cp u b s) (exec .idleTimer s) := by
  have now := beginNow_undisturbed h
  have hb := begin_undisturbed (dt := dt) h
  have hv : Undisturbed cp u b s (nextVote (begin dt s)) := hb.after (nextVote_harmless hb.1) (nextVote_keepsGiven _)
  simp only [exec, execVoteCompletes, execWorkDurationReached, execRestEnds, execIdleTimer]
  refine ⟨?_, ?_, ?_, ?_⟩
  · split
    · exact leadsTo_next.2 hb
    · split
      · exact leadsTo_next.2 hv
      · split
        · exact leadsTo_next.2 hv
        · split
          · exact leadsTo_next.2 (settle_undisturbed (hv.after (takeOutcome_harmless hv.1) (takeOutcome_keepsGiven _)))
          · exact leadsTo_next.2 hv
  · split
    · exact leadsTo_next.2 (settle_undisturbed (begin_undisturbed (dt := workDuration s - s.drv.work) h))
    · exact leadsTo_next.2 now
  · split
    · exact leadsTo_next.2 (settle_undisturbed
        (s := endRest (beginAt (s.drv.restStart + restDuration s) s)) (beginAt_undisturbed h))
    · exact leadsTo_next.2 now
  · split
    · exact leadsTo_next.2 (begin_undisturbed (dt := restDuration s - s.drv.idle) h)
    · exact leadsTo_next.2 now

/-- A command that is no order and no power-up leaves view and recent orders as they are, and adds nothing that writes. -/
theorem exec_undisturbed {c : Instr} (h : Writeless cp u b none { s with out := [] }) (hp : isPowerUp c = false)
    (ho : orderOf c = none) : LeadsTo (Undisturbed cp u b s) (exec c s) := by
  cases he : encodeFrame c with
  | some us =>
    obtain ⟨dt, hx⟩ := exec_service he s
    rw [hx]
    exact leadsTo_next.2 (onFrame_undisturbed (fun _ ht => runCommand_undisturbed c ht) (begin_undisturbed h))
  | none =>
    obtain ⟨timeout, watchdog, settles, quiet, limit⟩ := exec_driveTimer_undisturbed h
    cases c
    case powerUp => cases hp
    case position | head | returnOrder | margin | targetRead | targetWrite | clear => cases ho
    case writeFieldFull | commandFrameRefused => exact exec_field_undisturbed h rfl
    case readGate => exact exec_readGate_undisturbed h
    case writeGate => exact exec_writeGate_undisturbed h
    case readGateFalls =>
      obtain ⟨kept, -, -⟩ := exec_gateFalls_undisturbed (tail := ⟨0, []⟩) h
      exact kept
    case writeGateFalls =>
      obtain ⟨-, kept, -⟩ := exec_gateFalls_undisturbed (dt := 0) h
      exact kept
    case writeClockTimeout =>
      obtain ⟨-, -, kept⟩ := exec_gateFalls_undisturbed (dt := 0) h
      exact kept
    case driveMatch =>
      obtain ⟨kept, -, -, -⟩ := exec_mark_undisturbed h
      exact kept
    case generatedMatch =>
      obtain ⟨-, kept, -, -⟩ := exec_mark_undisturbed (dt := 0) h
      exact kept
    case generatedIndex =>
      obtain ⟨-, -, kept, -⟩ := exec_mark_undisturbed (dt := 0) h
      exact kept
    case driveIndex =>
      obtain ⟨-, -, -, kept⟩ := exec_mark_undisturbed h
      exact kept
    case driveReadyFalls =>
      obtain ⟨kept, -, -, -, -⟩ := exec_level_undisturbed (level := true) h
      exact kept
    case driveReadyRises =>
      obtain ⟨-, kept, -, -, -⟩ := exec_level_undisturbed (level := true) h
      exact kept
    case driveFaultRises =>
      obtain ⟨-, -, kept, -, -⟩ := exec_level_undisturbed (level := true) h
      exact kept
    case driveFaultFalls =>
      obtain ⟨-, -, -, kept, -⟩ := exec_level_undisturbed (level := true) h
      exact kept
    case driveProtectChanges =>
      obtain ⟨-, -, -, -, kept⟩ := exec_level_undisturbed h
      exact kept
    case captureFull =>
      obtain ⟨kept, -, -⟩ := exec_capture_undisturbed h
      exact kept
    case readClockTimeout =>
      obtain ⟨-, kept, -⟩ := exec_capture_undisturbed (rate := 0) (field := []) h
      exact kept
    case servedTransferEnds =>
      obtain ⟨-, -, kept⟩ := exec_capture_undisturbed (rate := 0) (field := []) h
      exact kept
    case positioningStepCompletes =>
      obtain ⟨kept, -, -, -⟩ := exec_stepEnd_undisturbed h
      exact kept
    case positioningStepFails =>
      obtain ⟨-, kept, -, -⟩ := exec_stepEnd_undisturbed h
      exact kept
    case positionTimeout =>
      obtain ⟨-, -, kept, -⟩ := exec_stepEnd_undisturbed (dt := 0) h
      exact kept
    case marginUnknownSettle =>
      obtain ⟨-, -, -, kept⟩ := exec_stepEnd_undisturbed (dt := 0) h
      exact kept
    case faultEpisodeTimeout => exact timeout
    case indexWatchdog => exact watchdog
    case viewSettle => exact settles
    case quietInterval => exact quiet
    case withholdLimit => exact limit
    case voteCompletes =>
      obtain ⟨kept, -, -, -⟩ := exec_workTimer_undisturbed h
      exact kept
    case workDurationReached =>
      obtain ⟨-, kept, -, -⟩ := exec_workTimer_undisturbed (dt := 0) h
      exact kept
    case restEnds =>
      obtain ⟨-, -, kept, -⟩ := exec_workTimer_undisturbed (dt := 0) h
      exact kept
    case idleTimer =>
      obtain ⟨-, -, -, kept⟩ := exec_workTimer_undisturbed (dt := 0) h
      exact kept
    all_goals cases he

end Sys2Proof.Machine
end

section
/-!
PROOFS. What taking an order makes of the view and the recent orders (R18, R35), and the four rules over every command.
-/

namespace Sys2Proof.Machine

variable {s t : State}

/-! ### An order is taken in its own moment -/

theorem giveUp_clock (s : State) : (giveUp s).clock = s.clock := by
  obtain ⟨d, h | h⟩ := giveUp_changes s <;> rw [h]

theorem demoteJob_clock (a : Addr) (s : State) : (demoteJob a s).clock = s.clock := by
  obtain ⟨q, e, d, o, h⟩ := reorder_changes (demoted a) s
  simp only [demoteJob, h]
  split
  · split
    · exact giveUp_clock _
    · rfl
  · rfl

theorem endUse_clock (s : State) : (endUse s).clock = s.clock := by
  obtain ⟨d, h⟩ := endUse_changes s
  rw [h]

theorem dropReseat_clock (s : State) : (dropReseat s).clock = s.clock := by
  obtain ⟨d, h⟩ := dropReseat_changes s
  rw [h]

theorem lowerLiveReadGate_clock (s : State) : (lowerLiveReadGate s).clock = s.clock := by
  unfold lowerLiveReadGate
  repeat' split
  all_goals simp [lowerReadGate_eq]

theorem endOperation_clock (s : State) : (endOperation s).clock = s.clock := by
  unfold endOperation
  split
  · rfl
  · dsimp only
    split <;> simp [stopSending_eq, endUse_clock, dropReseat_clock, lowerLiveReadGate_clock, lowerWriteGate_eq]

theorem endWithholdByOrder_clock (s : State) : (endWithholdByOrder s).clock = s.clock := by
  cases hw : s.ctl.withhold with
  | none => rw [endWithholdByOrder_none hw]
  | some w => rw [endWithholdByOrder_eq hw, endUse_clock, demoteJob_clock, dropReseat_clock]

/-! ### The view and the recent orders -/

/-- The view an order leaves (R18). -/
def viewAfter (o : Order) (c : Controller) : Nat × Nat × Strobe × Offset :=
  match o with
  | .position k => (k, c.head, c.strobe, c.offset)
  | .ret => (0, c.head, c.strobe, c.offset)
  | .head h => (c.cyl, h, c.strobe, c.offset)
  | .margin st off => (c.cyl, c.head, st, off)
  | .targetRead _ => (c.cyl, c.head, c.strobe, c.offset)
  | .targetWrite _ => (c.cyl, c.head, c.strobe, c.offset)
  | .clear => (c.cyl, c.head, c.strobe, c.offset)

theorem updateView_view (o : Order) (s : State) :
    ((updateView o s).ctl.cyl, (updateView o s).ctl.head, (updateView o s).ctl.strobe, (updateView o s).ctl.offset) =
      viewAfter o s.ctl ∧ (updateView o s).ctl.recentOrders = s.ctl.recentOrders ∧
      (updateView o s).straps = s.straps ∧ (updateView o s).clock = s.clock := by
  cases o <;> exact ⟨rfl, rfl, rfl, rfl⟩

/-- Taking an order moves the view, and off the service cylinder is the newest of the recent orders (R18, R35). -/
theorem takeOrder_view (o : Order) (s : State) :
    ((takeOrder o s).ctl.cyl, (takeOrder o s).ctl.head, (takeOrder o s).ctl.strobe, (takeOrder o s).ctl.offset) =
      viewAfter o s.ctl ∧
    (takeOrder o s).ctl.recentOrders =
      if (takeOrder o s).ctl.cyl = serviceCylinder s then s.ctl.recentOrders
      else pushRecent ⟨o, seconds s⟩ s.ctl.recentOrders := by
  let m := endWithholdByOrder (endOperation s)
  obtain ⟨⟨hstraps, -⟩, hcyl, hhead, hstrobe, hoffset, hrecent⟩ : KeepsGiven s m := by simp [m]
  have hclock : m.clock = s.clock := (endWithholdByOrder_clock _).trans (endOperation_clock s)
  obtain ⟨hview, hsame, hstraps', hclock'⟩ := updateView_view o m
  have hafter : viewAfter o m.ctl = viewAfter o s.ctl := by
    cases o <;> simp [viewAfter, hcyl, hhead, hstrobe, hoffset]
  have hv : viewOnService (updateView o m) = decide ((updateView o m).ctl.cyl = serviceCylinder s) :=
    decide_eq_decide.2 (by rw [serviceCylinder, hstraps', hstraps, serviceCylinder])
  have hseconds : seconds (updateView o m) = seconds s := by simp [seconds, hclock', hclock]
  rw [takeOrder, show endWithholdByOrder (endOperation s) = m from rfl, recordOrder_eq, hv, hseconds, hsame, hrecent]
  refine ⟨hview.trans hafter, ?_⟩
  by_cases hc : (updateView o m).ctl.cyl = serviceCylinder s <;> simp [hc]

/-- What each order leaves of the view, and what it may begin. -/
theorem exec_order_undisturbed {cp u b : Prop} {c : Instr} {dt : Nat} {o : Order} (ho : orderOf c = some (dt, o))
    (h : Writeless cp u b none { s with out := [] }) (hb : ∀ k, o = .targetWrite k → b → s.svc.mode ≠ .passive) :
    LeadsTo (Undisturbed cp u b (takeOrder o (begin dt s))) (exec c s) := by
  have htaken : Writeless cp u b none (takeOrder o (begin dt s)) := takeOrder_harmless (begin_harmless h)
  have hsvc : (takeOrder o (begin dt s)).svc = s.svc := by
    obtain ⟨-, hsvc, -⟩ := takeOrder_keepsSettings (o := o) (begin dt s)
    exact hsvc.trans (begin_keepsGiven s).1.2.1
  obtain ⟨-, hv⟩ := actOrder_keepsGiven (old := s.ctl.offset) (o := o) (takeOrder o (begin dt s))
  rw [exec_order ho s]
  exact leadsTo_next.2 (settle_undisturbed ⟨actOrder_harmless htaken fun k hk hp => hsvc ▸ hb k hk hp, hv⟩)

/-- No command but POWER_UP adds anything that writes to the drive, where none may begin a live write (R17, R28). -/
theorem exec_writeless {cp u b : Prop} {c : Instr} (h : Writeless cp u b none { s with out := [] }) (hp : isPowerUp c = false)
    (hb : ∀ dt k, c = .targetWrite dt k → b → s.svc.mode ≠ .passive) : LeadsTo (Writeless cp u b none) (exec c s) := by
  cases ho : orderOf c with
  | none => exact fun t ht => (exec_undisturbed h hp ho t ht).1
  | some x =>
    obtain ⟨dt, o⟩ := x
    refine fun t ht => (exec_order_undisturbed ho h (fun k hk hbp => ?_) t ht).1
    subst hk
    cases c <;> cases ho
    exact hb _ _ rfl hbp

/-! ### The obligations -/

/-- The view and the recent orders after any command but POWER_UP. -/
theorem exec_view {c : Instr} (hp : isPowerUp c = false) (h : exec c s = .next t) :
    (orderOf c = none → KeepsView s t) ∧
      ∀ dt o, orderOf c = some (dt, o) → KeepsView (takeOrder o (begin dt s)) t := by
  have hw : Writeless False False False none { s with out := [] } :=
    ⟨id, fun hu => hu.elim, fun hw => hw.elim, fun hb => hb.elim, fun hb => hb.elim, nofun⟩
  exact ⟨fun ho => (exec_undisturbed hw hp ho t h).2,
    fun dt o ho => (exec_order_undisturbed ho hw (fun _ _ hb => hb.elim) t h).2⟩

/-- Settles O21: an order leaves the view it names, every other command the view it finds. -/
theorem onlyOrdersMoveTheView : Obligations.OnlyOrdersMoveTheView := by
  intro c s t h hp
  obtain ⟨other, order⟩ := exec_view hp h
  cases ho : orderOf c with
  | none =>
    obtain ⟨hcyl, hhead, hstrobe, hoffset, -⟩ := other ho
    cases c <;> first | exact ⟨hcyl, hhead, hstrobe, hoffset⟩ | cases ho
  | some x =>
    obtain ⟨dt, o⟩ := x
    obtain ⟨hcyl, hhead, hstrobe, hoffset, -⟩ := order dt o ho
    obtain ⟨hview, -⟩ := takeOrder_view o (begin dt s)
    rw [hcyl, hhead, hstrobe, hoffset]
    cases c <;> cases ho <;> simpa [viewAfter] using hview

/-- Settles O22: an order off the service cylinder is appended, every other command leaves the list. -/
theorem recentOrdersTakeOrders : Obligations.RecentOrdersTakeOrders := by
  intro c s t h hp
  obtain ⟨other, order⟩ := exec_view hp h
  cases ho : orderOf c with
  | none =>
    obtain ⟨-, -, -, -, hrecent⟩ := other ho
    exact hrecent
  | some x =>
    obtain ⟨dt, o⟩ := x
    obtain ⟨hcyl, -, -, -, hrecent⟩ := order dt o ho
    obtain ⟨-, htaken⟩ := takeOrder_view o (begin dt s)
    have hv : serviceCylinder (begin dt s) = serviceCylinder s := by simp [serviceCylinder]
    rw [hrecent, htaken, hcyl, hv]
    simp [pushRecent, seconds, Config.second, Config.maxTwoUnit]

/-- POWER_UP empties the bounded lists (R201). -/
theorem listsOk_powerUp {c : Instr} (hp : isPowerUp c = true) (h : exec c s = .next t) : ListsOk t := by
  cases c
  case powerUp => cases h; simp [ListsOk, State.poweredUp, Controller.fresh]
  all_goals cases hp

/-- Settles O19: the copies by what the operations leave of them, the recent orders by what an order appends. -/
theorem listBoundsAreKept : Obligations.ListBoundsAreKept := by
  intro s t ⟨hrecent, hcopies⟩ hstep
  unfold step at hstep
  split at hstep
  · cases hstep
    exact ⟨hrecent, hcopies⟩
  next c rest _ =>
    cases hp : isPowerUp c with
    | true => exact listsOk_powerUp hp hstep
    | false =>
      have hw : Writeless True False False none { s with pending := rest, out := [] } :=
        ⟨id, fun hu => hu.elim, fun _ => hcopies, fun hb => hb.elim, fun hb => hb.elim, nofun⟩
      refine ⟨?_, (exec_writeless (s := { s with pending := rest }) hw hp (fun _ _ _ hb => hb.elim) t hstep).copies trivial⟩
      rw [recentOrdersTakeOrders c _ t hstep hp]
      split
      · exact hrecent
      · split
        · exact hrecent
        · simp only [List.length_drop, List.length_append, List.length_singleton]
          omega

/-! ### What reaches the drive -/

/-- Only a service write to service sector 0 takes a command frame (R31, R179). -/
theorem noLiveWrite_of_acceptsFrame (h : acceptsFrame s = true) : ∀ o, s.ctl.op = some o → o.kind ≠ .liveWrite := by
  intro o ho
  simp only [acceptsFrame, ho, Bool.and_eq_true, decide_eq_true_eq] at h
  simp [h]

/-- While a live write stands no command but POWER_UP changes the mode (R31, R34, R185). -/
theorem exec_mode_of_liveWrite {c : Instr} {o : Op} (hp : isPowerUp c = false) (ho : s.ctl.op = some o)
    (hk : o.kind = .liveWrite) (h : exec c s = .next t) : t.svc.mode = s.svc.mode := by
  have hclosed : ∀ dt act, onFrame act (begin dt s) = begin dt s := fun dt act => by
    simp [onFrame, acceptsFrame, ho, hk]
  cases he : encodeFrame c with
  | some us =>
    obtain ⟨dt, hx⟩ := exec_service he s
    rw [hx, hclosed] at h
    cases h
    simp
  | none =>
    cases hf : carriesField c with
    | false => exact congrArg Service.mode (exec_keepsSettings s hp hf he t h).2.1
    | true =>
      cases c
      case commandFrameRefused => cases h; simp [hclosed]
      case writeFieldFull dt field =>
        simp only [exec, execWriteFieldFull, writing, begin_keeps, ho, hk] at h
        split at h
        · cases h; simp
        next o' he => 
          split at he <;> cases he
          simp only [hk] at h
          cases h
          simp
      all_goals cases hf

/-- No write is under way right after POWER_UP (R201). -/
theorem noWriteUnderWay_powerUp {c : Instr} (hp : isPowerUp c = true) (h : exec c s = .next t) : NoWriteUnderWay t := by
  cases c
  case powerUp => cases h; simp [NoWriteUnderWay, State.poweredUp, DrivePort.fresh]
  all_goals cases hp

/-- Where the mode is not PASSIVE after a command, no live write stands: where one stood before it the mode was PASSIVE
and stayed so, and one begins in PASSIVE mode alone. -/
theorem noLiveWrite_kept {c : Instr} (hp : isPowerUp c = false) (hs : NoWriteUnderWay s) (h : exec c s = .next t)
    (hm : t.svc.mode ≠ .passive) : ∀ o, t.ctl.op = some o → o.kind ≠ .liveWrite := by
  obtain ⟨hop, hheld⟩ := hs
  by_cases hno : ∀ o, s.ctl.op = some o → o.kind ≠ .liveWrite
  · have hw : Writeless False True True none { s with out := [] } :=
      ⟨id, fun _ => hheld, fun hf => hf.elim, fun _ => hno, fun _ => by simp [WritesNothing], nofun⟩
    refine (exec_writeless hw hp (fun dt k hc _ => ?_) t h).op trivial
    subst hc
    exact (exec_keepsSettings s hp rfl rfl t h).2.1 ▸ hm
  · push Not at hno
    obtain ⟨o, ho, hk⟩ := hno
    have hpassive : s.svc.mode = .passive := by_contra fun hne => hop hne o ho hk
    exact absurd ((exec_mode_of_liveWrite hp ho hk h).trans hpassive) hm

/-- No target write waits to be relayed after a command, and outside PASSIVE mode nothing it drives writes (R17). -/
theorem writesNothing_kept {c : Instr} (hp : isPowerUp c = false) (hs : NoWriteUnderWay s) (h : exec c s = .next t) :
    (∀ o ∈ t.drv.heldOrders, ∀ k, o ≠ .targetWrite k) ∧ (s.svc.mode ≠ .passive → WritesNothing t.out) := by
  obtain ⟨hop, hheld⟩ := hs
  have hw : Writeless False True (s.svc.mode ≠ .passive) none { s with out := [] } :=
    ⟨fun _ => trivial, fun _ => hheld, fun hf => hf.elim, hop, fun _ => by simp [WritesNothing], nofun⟩
  have ht := exec_writeless hw hp (fun _ _ _ hm => hm) t h
  exact ⟨ht.held trivial, ht.out⟩

/-- With no write under way the drive's write lines are quiet outside PASSIVE mode (R17, R34). -/
theorem driveWriteLines_quiet (h : NoWriteUnderWay t) (hm : t.svc.mode ≠ .passive) (data clock : Bool) :
    driveWriteLines data clock t = (false, false) := by
  obtain ⟨hop, -⟩ := h
  exact driveWriteLines_closed (writePathOpen_of_noWrite (hop hm)) data clock

/-- Settles O20: no operation of the device adds a write, and a live write begins in PASSIVE mode alone. -/
theorem noWriteReachesDrive : Obligations.NoWriteReachesDrive := by
  intro c s t hs h
  cases hp : isPowerUp c with
  | true =>
    have ht := noWriteUnderWay_powerUp hp h
    exact ⟨ht, nofun, driveWriteLines_quiet ht⟩
  | false =>
    obtain ⟨hheld, hout⟩ := writesNothing_kept hp hs h
    have ht : NoWriteUnderWay t := ⟨noLiveWrite_kept hp hs h, hheld⟩
    exact ⟨ht, fun hm _ => hout hm, driveWriteLines_quiet ht⟩

end Sys2Proof.Machine
end

section
/-!
PROOFS. The acts a command sets off, one after another (log 31): how many they are, when the next one is the holder's own,
and when nothing is left to do.
-/

namespace Sys2Proof.Machine

/-- `n` acts, each the one that is due, lead from one state to another. -/
inductive Acts : Nat → State → State → Prop
  | nil (s : State) : Acts 0 s s
  | cons {n : Nat} {x : Act} {s t : State} (due : nextAct s = some x) (rest : Acts n (doAct x s) t) : Acts (n + 1) s t

variable {n m : Nat} {s t u : State}

theorem Acts.one {x : Act} (due : nextAct s = some x) (h : doAct x s = t) : Acts 1 s t := h ▸ .cons due (.nil _)

theorem Acts.trans (h : Acts n s t) (h' : Acts m t u) : Acts (m + n) s u := by
  induction h with
  | nil => exact h'
  | cons due _ ih => exact .cons due (ih h')

theorem settleN_of_acts (h : Acts n s t) (k : Nat) : settleN (k + n) s = settleN k t := by
  induction h with
  | nil => rfl
  | cons due _ ih => rw [← ih]; exact settleN_act _ due

/-- A command's acts, carried out until nothing is due, are what settling does: there is always room for 64. -/
theorem settle_of_acts (h : Acts n s t) (still : NothingDue t) (hn : n ≤ 64) : settle s = t := by
  obtain ⟨k, hk⟩ : ∃ k, settleActs s = k + n := ⟨settleActs s - n, by simp [settleActs]; omega⟩
  rw [settle, hk, settleN_of_acts h, settleN_still k still]

/-- At most `k` acts lead from one state to another in which nothing is due. -/
def Settles (k : Nat) (s t : State) : Prop := ∃ n, n ≤ k ∧ Acts n s t ∧ NothingDue t

theorem Settles.of_acts (h : Acts n s t) (still : NothingDue t) : Settles n s t := ⟨n, Nat.le_refl n, h, still⟩

theorem Settles.of_eq {k : Nat} (h : Settles k s t) (e : t = u) : Settles k s u := e ▸ h

/-- Acts that lead to a state which then settles. -/
theorem Acts.settles {k : Nat} (h : Acts n s t) (h' : Settles k t u) : Settles (k + n) s u := by
  obtain ⟨m, hm, hacts, still⟩ := h'
  exact ⟨m + n, by omega, h.trans hacts, still⟩

theorem Settles.settle {k : Nat} (h : Settles k s t) (hk : k ≤ 64 := by omega) : settle s = t := by
  obtain ⟨n, hn, hacts, still⟩ := h
  exact settle_of_acts hacts still (by omega)

/-! ### The next act -/

/-- Nothing comes before what the holder does next: the drive is not to pass on, no rest is due, no withholding is to end,
and the sweep need not yield (R76, R132, R133, R143). -/
abbrev Unhindered (s : State) : Prop :=
  s.drv.passOn = .stays ∧ restDue s = false ∧
    (∀ w, s.ctl.withhold = some w → w.limitPassed = false ∧ s.drv.resting = false) ∧ sweepYields s = false

theorem nextAct_of_unhindered (h : Unhindered s) :
    nextAct s = if s.drv.step.isSome || s.drv.capture.isSome || s.drv.episode.isSome then none else holderAct s := by
  obtain ⟨hpass, hrest, hw, hyield⟩ := h
  have hmeets : restMeetsWithhold s = false := by
    cases hs : s.ctl.withhold with
    | none => simp [restMeetsWithhold, hs]
    | some w => simp [restMeetsWithhold, (hw w hs).2]
  have hlimit : limitEnds s = false := by
    cases hs : s.ctl.withhold with
    | none => simp [limitEnds, hs]
    | some w => simp [limitEnds, hs, (hw w hs).1]
  simp [nextAct, hpass, hrest, hmeets, hlimit, hyield]

/-- With something in flight on the drive nothing is due before it ends. -/
theorem nothingDue_of_inFlight (h : Unhindered s)
    (hflight : (s.drv.step.isSome || s.drv.capture.isSome || s.drv.episode.isSome) = true) : NothingDue s := by
  rw [NothingDue, nextAct_of_unhindered h, if_pos hflight]

/-- Nothing is in flight on the drive, so that its holder may go on. -/
abbrev Quiescent (s : State) : Prop :=
  Unhindered s ∧ s.drv.step = none ∧ s.drv.capture = none ∧ s.drv.episode = none

theorem nextAct_of_quiescent (h : Quiescent s) : nextAct s = holderAct s := by
  obtain ⟨hfree, hstep, hcapture, hepisode⟩ := h
  simp [nextAct_of_unhindered hfree, hstep, hcapture, hepisode]

theorem sweepYields_of_holder (h : s.drv.holder ≠ .sweep) : sweepYields s = false := by simp [sweepYields, h]

theorem noWithhold (h : s.ctl.withhold = none) :
    ∀ w, s.ctl.withhold = some w → w.limitPassed = false ∧ s.drv.resting = false := by
  simp [h]

/-! ### The controller takes a drive that no device party holds -/

/-- A step issued reaches the drive's lines and record, and is in flight (R120, R121). -/
theorem issueStep_parts (o : Order) (m : Option Move) (s : State) :
    ∃ l r st, issueStep o m s =
      { s with drv.lines := l, drv.record := r, drv.step := some st, out := s.out ++ [.order o] } := by
  have hissued : ∃ l r, issueOrder o s = { s with drv.lines := l, drv.record := r, out := s.out ++ [.order o] } := by
    cases o
    case margin st off =>
      by_cases hsame : s.drv.record.offset = some off
      · exact ⟨_, _, if_pos hsame⟩
      · exact ⟨_, _, if_neg hsame⟩
    all_goals exact ⟨_, _, rfl⟩
  obtain ⟨l, r, h⟩ := hissued
  exact ⟨l, r, _, by simp only [issueStep, h]; rfl⟩

/-- The controller holds the drive, with no quiet interval running. -/
abbrev controllers (s : State) : State := { s with drv.holder := .controller, drv.quietDue := none }

/-- A drive that is not a device party's is the controller's at once (R132). -/
theorem takeDrive_free (h : s.drv.holder.isDevice = false) (hpass : s.drv.passOn = .stays) :
    takeDrive s = controllers s := by
  rw [takeDrive, controllers, if_neg (by simp [h]), setHolder, ← hpass]
  simp [h, Holder.isDevice.eq_2]

/-- A free drive's order to relay is the only one held, and its relay is due (R20). -/
theorem relay_due {o : Order} (h : DriveFree s) :
    relay o s = { controllers s with drv.heldOrders := [o] } ∧
      nextAct { controllers s with drv.heldOrders := [o] } = some .relay ∧
      doAct .relay { controllers s with drv.heldOrders := [o] } =
        if isStep o s then issueStep o none (controllers s) else endUse (issueOrder o (controllers s)) := by
  obtain ⟨hop, hw, hstep, htravel, hcapture, hepisode, hheld, hpass, hholder, hrest⟩ := h
  have hleft : { controllers s with drv.heldOrders := [] } = controllers s := by rw [← hheld]
  have hsame : isStep o (controllers s) = isStep o s := by cases o <;> rfl
  refine ⟨?_, ?_, ?_⟩
  · rw [relay, hheld]
    exact takeDrive_free hholder hpass
  · have only : OnlyRelays { controllers s with drv.heldOrders := [o] } :=
      ⟨rfl, hpass, hstep, hcapture, hepisode, htravel, hw, awaitsDrive_none hop, hrest⟩
    simpa using nextAct_onlyRelays only
  · simp only [doAct, relayOrder, hleft, hsame]

/-- A free drive relays an order that is no step at once, and its quiet interval starts (R20, R131). -/
theorem settle_relay_quick {o : Order} (h : DriveFree s) (quick : isStep o s = false) :
    settle (relay o s) = { issueOrder o (controllers s) with
      drv.quietDue := some (s.clock + s.svc.params.quietInterval * 1000) } := by
  obtain ⟨hrelay, hdue, hact⟩ := relay_due (o := o) h
  obtain ⟨l, r, hissued, -⟩ := issueOrder_quick (s := controllers s) (o := o) (by simpa [isStep] using quick)
  obtain ⟨hop, hw, hstep, htravel, hcapture, hepisode, hheld, hpass, hholder, hrest⟩ := h
  rw [hrelay]
  refine settle_of_acts (.one hdue (hact.trans ?_)) ?_ (by omega)
  · rw [if_neg (by simp [quick]), hissued]
    exact endUse_controller rfl
  · rw [hissued]
    exact nothingDue_of_controllerRests hw hop rfl hpass hheld htravel hrest

/-- A free drive takes a relayed positioning step at once, and nothing is due before it ends (R20, R121). -/
theorem settle_relay_step {o : Order} (h : DriveFree s) (step : isStep o s = true) :
    settle (relay o s) = issueStep o none (controllers s) := by
  obtain ⟨hrelay, hdue, hact⟩ := relay_due (o := o) h
  obtain ⟨hop, hw, hstep, htravel, hcapture, hepisode, hheld, hpass, hholder, hrest⟩ := h
  obtain ⟨l, r, st, hissued⟩ := issueStep_parts o none (controllers s)
  rw [hrelay]
  refine settle_of_acts (.one hdue (hact.trans (if_pos step))) ?_ (by omega)
  rw [hissued]
  exact nothingDue_of_inFlight ⟨hpass, hrest, noWithhold hw, sweepYields_of_holder (by simp)⟩ rfl

/-! ### Orders taken with nothing under way -/

/-- With nothing of the controller's under way, taking an order moves the view and records the order (R18, R35). -/
theorem takeOrder_unoccupied {o : Order} (hop : s.ctl.op = none) (hw : s.ctl.withhold = none) :
    takeOrder o s = recordOrder o (updateView o s) := by
  rw [takeOrder, show endOperation s = s by simp [endOperation, hop], endWithholdByOrder_none hw]

/-- An order taken with nothing of the controller's under way: `v` is the state with its view moved and it recorded. -/
theorem exec_order_unoccupied {c : Instr} {dt : Nat} {o : Order} (ho : orderOf c = some (dt, o)) {b : State}
    (hb : begin dt s = b) (hop : b.ctl.op = none) (hw : b.ctl.withhold = none) :
    exec c s = .next (settle (actOrder s.ctl.offset o (recordOrder o (updateView o b)))) := by
  rw [exec_order ho, hb, takeOrder_unoccupied hop hw]

end Sys2Proof.Machine
end

section
/-!
PROOFS. The orders taken with nothing under way: POSITION and RETURN relayed (R20), HEAD and MARGIN (R20, R21), CLEAR (R23),
and the targets that are served or ignored (R27, R28).
-/

namespace Sys2Proof.Machine

variable {s : State}

/-- An order recorded, but for one that belongs to the service cylinder (R35). -/
abbrev recorded (v : Bool) (o : Order) (s : State) : List OrderRecord :=
  if v then s.ctl.recentOrders else pushRecent ⟨o, seconds s⟩ s.ctl.recentOrders

/-! ### POSITION and RETURN -/

theorem serviceCylinder_ne_zero (s : State) : 0 ≠ serviceCylinder s := by
  simp only [serviceCylinder, Straps.service]
  omega

/-- POSITION and RETURN relayed: the view moves with its line false, and the step is in flight (R20, R121). -/
abbrev positionRelayed (o : Order) (c : Nat) (s : State) : State :=
  { s with
    ctl.cyl := c
    ctl.shownOnCylinder := false
    ctl.seekFailed := false
    ctl.errorCleared := false
    ctl.settleDue := none
    ctl.recentOrders := pushRecent ⟨o, seconds s⟩ s.ctl.recentOrders
    drv.lines.onCylinder := false
    drv.record.cyl := none
    drv.holder := .controller
    drv.quietDue := none
    drv.step := some ⟨o, none, s.clock, s.svc.params.positionTimeout * 1000, false⟩
    out := s.out ++ [.order o] }

/-- In PASSIVE mode off the service cylinder POSITION and RETURN are relayed, the shown line falling at once (R20). -/
theorem settle_positionRelayed {o : Order} {c : Nat} (h : DriveFree s) (ho : GoesTo o c) (hm : s.svc.mode = .passive)
    (hc : c ≠ serviceCylinder s) :
    settle (actPosition o (recordOrder o (updateView o s))) = positionRelayed o c s := by
  have hview : viewOnService { s with ctl.cyl := c } = false := decide_eq_false hc
  have hpassive : isPassive s = true := decide_eq_true hm
  have hrelay : actPosition o (recordOrder o (updateView o s)) = relay o { s with
      ctl.cyl := c
      ctl.shownOnCylinder := false
      ctl.seekFailed := false
      ctl.errorCleared := false
      ctl.settleDue := none
      ctl.recentOrders := pushRecent ⟨o, seconds s⟩ s.ctl.recentOrders } := by
    rw [updateView_of_goesTo ho, recordOrder_eq, hview]
    exact if_pos (Bool.and_eq_true_iff.2 ⟨hpassive, congrArg not hview⟩)
  rw [hrelay, settle_relay_step]
  · rcases ho with rfl | ⟨rfl, rfl⟩ <;> rfl
  · exact h
  · rcases ho with rfl | ⟨rfl, rfl⟩ <;> rfl

/-- Settles O25: the relayed step of a free drive, for POSITION and for RETURN. -/
theorem positioningIsRelayed : Obligations.PositioningIsRelayed := by
  intro dt c s
  obtain ⟨work, idle, hbegin⟩ := begin_changes dt s
  rw [hbegin]
  intro b hm hfree after
  obtain ⟨hop, hw, -⟩ := id hfree
  constructor
  · intro hc
    rw [exec_order_unoccupied (o := .position c) rfl hbegin hop hw]
    exact congrArg Host.Outcome.next (settle_positionRelayed (s := b) hfree (.inl rfl) hm hc)
  · rw [exec_order_unoccupied (o := .ret) rfl hbegin hop hw]
    exact congrArg Host.Outcome.next (settle_positionRelayed (s := b) hfree (.inr ⟨rfl, rfl⟩) hm (serviceCylinder_ne_zero s))

/-! ### HEAD and MARGIN -/

theorem actHead_eq (n : Nat) (s : State) :
    actHead n (recordOrder (.head n) (updateView (.head n) s)) =
      if isPassive s && !viewOnService s then
        relay (.head n) { s with ctl.head := n, ctl.recentOrders := recorded (viewOnService s) (.head n) s }
      else { s with ctl.head := n, ctl.recentOrders := recorded (viewOnService s) (.head n) s } := by
  rw [recordOrder_eq]
  rfl

/-- Settles O26: the view's head alone, or the relay of an order that is no step. -/
theorem headSelects : Obligations.HeadSelects := by
  intro dt n s
  obtain ⟨work, idle, hbegin⟩ := begin_changes dt s
  rw [hbegin]
  intro b v recent
  refine ⟨fun ⟨hop, hw, hdue⟩ hstays => ?stays, fun hfree hm hv => ?relayed⟩
  case stays =>
    rw [exec_order_unoccupied (o := .head n) rfl hbegin hop hw]
    refine congrArg Host.Outcome.next (settle_eq ((actHead_eq n b).trans (if_neg ?_)) hdue)
    have hv : viewOnService b = v := rfl
    rcases hstays with hm | hone
    · simp [isPassive, b, hm]
    · simp [hv, hone]
  case relayed =>
    obtain ⟨hop, hw, -⟩ := id hfree
    have hgoes : (isPassive b && !viewOnService b) = true :=
      Bool.and_eq_true_iff.2 ⟨decide_eq_true hm, congrArg not hv⟩
    rw [exec_order_unoccupied (o := .head n) rfl hbegin hop hw, actOrder, actHead_eq, if_pos hgoes, settle_relay_quick]
    · rfl
    · exact hfree
    · rfl

end Sys2Proof.Machine
end

section
/-!
PROOFS. MARGIN, CLEAR and the targets that are served or ignored, taken with nothing under way (R20, R21, R23, R27, R28).
-/

namespace Sys2Proof.Machine

variable {s : State}

/-! ### MARGIN -/

/-- The view's strobe and offset set and the order recorded (R18, R35). -/
abbrev marginViewed (st : Strobe) (off : Offset) (s : State) : State :=
  { s with
    ctl.strobe := st
    ctl.offset := off
    ctl.recentOrders := recorded (viewOnService s) (.margin st off) s }

theorem marginViewed_eq (st : Strobe) (off : Offset) (s : State) :
    recordOrder (.margin st off) (updateView (.margin st off) s) = marginViewed st off s := recordOrder_eq _ _

/-- With no order held and no step in flight the offset expected is the recorded one. -/
theorem expectedOffset_of_driveFree (h : DriveFree s) : expectedOffset s = s.drv.record.offset := by
  obtain ⟨-, -, hstep, -, -, -, hheld, -⟩ := h
  simp [expectedOffset, hstep, hheld]

variable {st : Strobe} {off before : Offset}

theorem actMargin_onService (hv : viewOnService s = true) : actMargin st off before s = s := by
  simp [actMargin, hv]

/-- In CAPTIVE mode, and where the view offset of a real cylinder stays, MARGIN shows nothing (R21). -/
theorem actMargin_quiet (hm : s.svc.mode ≠ .passive)
    (h : (realCylinder s s.ctl.cyl && decide (off ≠ before)) = false ∨ s.svc.mode = .captive) :
    actMargin st off before s = s := by
  rw [actMargin, if_neg (by simp [isPassive, hm])]
  rcases h with hsame | hcaptive
  · rw [if_pos]
    by_cases hreal : realCylinder s s.ctl.cyl = true
    · simp_all
    · simp [hreal]
  · rw [hcaptive]
    split <;> rfl

/-- In ACTIVE mode a changed offset on a real cylinder drops the line, for a settle or behind a cleared error (R21, R23). -/
theorem actMargin_settles (hv : viewOnService s = false) (hm : s.svc.mode = .active)
    (h : (realCylinder s s.ctl.cyl && decide (off ≠ before)) = true) :
    actMargin st off before s = { s with
      ctl.shownOnCylinder := false
      ctl.settleDue := if s.ctl.errorCleared then s.ctl.settleDue else some (s.clock + Config.ms) } := by
  obtain ⟨hreal, hchanged⟩ := Bool.and_eq_true_iff.1 h
  have hne : off ≠ before := of_decide_eq_true hchanged
  rw [actMargin, if_neg (by simp [isPassive, hm]), if_neg (by simp [hv, hreal, hne]), hm]
  by_cases hcleared : s.ctl.errorCleared = true <;> simp [hcleared, startViewSettle]

theorem actMargin_relays (hv : viewOnService s = false) (hm : s.svc.mode = .passive) :
    actMargin st off before s =
      relay (.margin st off) (if expectedOffset s = some off then s else { s with ctl.shownOnCylinder := false }) := by
  simp [actMargin, isPassive, hm, hv]

/-- A MARGIN that leaves the drive's offset sets its strobe (R120). -/
theorem issueOrder_margin_strobe (h : s.drv.record.offset = some off) :
    issueOrder (.margin st off) s =
      { s with drv.record.strobe := some st, out := s.out ++ [.order (.margin st off)] } := if_pos h

/-- A MARGIN that changes the drive's offset, or meets an UNKNOWN one, drops the record, and the line of a known one
(R120). -/
theorem issueOrder_margin_offset (h : s.drv.record.offset ≠ some off) :
    issueOrder (.margin st off) s =
      { s with
        drv.record.strobe := some st
        drv.record.offset := none
        drv.lines.onCylinder := s.drv.record.offset.isNone && s.drv.lines.onCylinder
        out := s.out ++ [.order (.margin st off)] } := by
  refine (if_neg h).trans ?_
  cases hrecord : s.drv.record.offset <;> simp [emit, hrecord]

theorem isStep_margin : isStep (.margin st off) s = decide (s.drv.record.offset ≠ some off) := rfl

/-- Settles O27: the view alone, a view settle, and a relay that is a step exactly when the drive's offset differs. -/
theorem marginSets : Obligations.MarginSets := by
  intro dt st off s
  obtain ⟨work, idle, hbegin⟩ := begin_changes dt s
  rw [hbegin]
  intro b v recent viewed changes use
  have hviewed : viewed = marginViewed st off b := rfl
  have acts (hop : b.ctl.op = none) (hw : b.ctl.withhold = none) :
      exec (.margin dt st off) s = .next (settle (actMargin st off s.ctl.offset viewed)) :=
    (exec_order_unoccupied (o := .margin st off) rfl hbegin hop hw).trans
      (congrArg (fun t => Host.Outcome.next (settle (actMargin st off s.ctl.offset t))) (marginViewed_eq st off b))
  refine ⟨fun ⟨hop, hw, hdue⟩ hstays => ?stays, fun ⟨hop, hw, hdue⟩ hv hm hchanges => ?settles,
    fun hfree hv hm hsame => ?strobe, fun hfree hv hm hdiffers => ?offset⟩
  case stays =>
    rw [acts hop hw]
    refine congrArg Host.Outcome.next (settle_eq ?_ hdue)
    rcases hstays with hone | ⟨hm, hquiet⟩
    · exact actMargin_onService hone
    · exact actMargin_quiet (s := viewed) hm hquiet
  case settles =>
    rw [acts hop hw]
    exact congrArg Host.Outcome.next (settle_eq (actMargin_settles (s := viewed) hv hm hchanges) hdue)
  case strobe =>
    obtain ⟨hop, hw, -⟩ := id hfree
    have hexpected : expectedOffset viewed = some off := (expectedOffset_of_driveFree (s := viewed) hfree).trans hsame
    rw [acts hop hw, actMargin_relays (s := viewed) hv hm, if_pos hexpected, settle_relay_quick (s := viewed) hfree,
      issueOrder_margin_strobe (s := controllers viewed) hsame]
    · rfl
    · exact decide_eq_false (not_not_intro hsame)
  case offset =>
    obtain ⟨hop, hw, -⟩ := id hfree
    have hexpected : expectedOffset viewed ≠ some off := (expectedOffset_of_driveFree (s := viewed) hfree) ▸ hdiffers
    rw [acts hop hw, actMargin_relays (s := viewed) hv hm, if_neg hexpected,
      settle_relay_step (s := { viewed with ctl.shownOnCylinder := false }) hfree, issueStep,
      issueOrder_margin_offset (s := controllers { viewed with ctl.shownOnCylinder := false }) hdiffers]
    · rfl
    · exact decide_eq_true hdiffers

/-! ### CLEAR -/

/-- The shown lines a CLEAR clears, and its hold on shown ON CYLINDER (R23). -/
abbrev clearShown (s : State) : State :=
  { s with
    ctl.shownFault := false
    ctl.shownPositionError := false
    ctl.errorCleared := s.ctl.errorCleared || clearHolds s
    ctl.recentOrders := recorded (viewOnService s) .clear s }

/-- A CLEAR goes on to the drive in PASSIVE mode off V, and in the other modes to a TURNING one with an error up (R23). -/
def clearReaches (s : State) : Bool :=
  !viewOnService s && (isPassive s ||
    (decide (s.drv.condition = .turning) && (s.drv.lines.fault || s.drv.lines.positionError)))

theorem actClear_eq (s : State) :
    actClear (recordOrder .clear (updateView .clear s)) =
      if clearReaches s then relay .clear (clearShown s) else clearShown s := by
  have hclear : actClear (recordOrder .clear (updateView .clear s)) =
      if viewOnService s then clearShown s
      else if isPassive s then relay .clear (clearShown s)
      else if s.drv.condition = .turning ∧ (s.drv.lines.fault = true ∨ s.drv.lines.positionError = true) then
        relay .clear (clearShown s)
      else clearShown s := (congrArg actClear (recordOrder_eq _ _)).trans rfl
  rw [hclear]
  cases hv : viewOnService s with
  | true => simp [clearReaches, hv]
  | false =>
    cases hm : isPassive s with
    | true => simp [clearReaches, hv, hm]
    | false => simp [clearReaches, hv, hm]

/-- Settles O28: the two shown lines, and the relay where the drive is reached. -/
theorem clearClears : Obligations.ClearClears := by
  intro dt s
  obtain ⟨work, idle, hbegin⟩ := begin_changes dt s
  rw [hbegin]
  intro b v shown reaches
  have acts (hop : b.ctl.op = none) (hw : b.ctl.withhold = none) : exec (.clear dt) s = .next
      (settle (if reaches = true then relay .clear shown else shown)) :=
    (exec_order_unoccupied (o := .clear) rfl hbegin hop hw).trans
      (congrArg (fun t => Host.Outcome.next (settle t)) (actClear_eq b))
  refine ⟨fun ⟨hop, hw, hdue⟩ hstays => ?stays, fun hfree hreaches => ?reaches⟩
  case stays =>
    rw [acts hop hw]
    exact congrArg Host.Outcome.next (settle_eq (if_neg (by simp [hstays])) hdue)
  case reaches =>
    obtain ⟨hop, hw, -⟩ := id hfree
    rw [acts hop hw, if_pos hreaches, settle_relay_quick (s := shown) hfree rfl]
    rfl

/-! ### Targets served and ignored -/

/-- A state with a target recorded: a target leaves the view (R18, R35). -/
abbrev noted (o : Order) (s : State) : State := { s with ctl.recentOrders := recorded (viewOnService s) o s }

/-- A target of either kind, with nothing under way: what it does to the state with the order recorded. -/
theorem exec_target_unoccupied {dt k : Nat} {b : State} (hb : begin dt s = b) (hop : b.ctl.op = none)
    (hw : b.ctl.withhold = none) :
    exec (.targetRead dt k) s = .next (settle (actTargetRead k (noted (.targetRead k) b))) ∧
      exec (.targetWrite dt k) s = .next (settle (actTargetWrite k (noted (.targetWrite k) b))) :=
  ⟨(exec_order_unoccupied (o := .targetRead k) rfl hb hop hw).trans
      (congrArg (fun t => Host.Outcome.next (settle (actTargetRead k t))) (recordOrder_eq _ _)),
    (exec_order_unoccupied (o := .targetWrite k) rfl hb hop hw).trans
      (congrArg (fun t => Host.Outcome.next (settle (actTargetWrite k t))) (recordOrder_eq _ _))⟩

variable {k : Nat}

/-- Every target on the service cylinder is served (R28, R31). -/
theorem actTarget_onService (hon : s.ctl.shownOnCylinder = true) (hv : viewOnService s = true) :
    actTargetRead k s = beginServed .serviceRead (targetAddr s k) s ∧
      actTargetWrite k s = beginServed .serviceWrite (targetAddr s k) s := by
  simp [actTargetRead, actTargetWrite, hon, hv]

/-- In ACTIVE mode the map decides a target of a real sector (R28). -/
theorem actTarget_active (hon : s.ctl.shownOnCylinder = true) (hv : viewOnService s = false) (hm : s.svc.mode = .active)
    (hreal : realAddr s (targetAddr s k) = true) :
    actTargetRead k s = decideRead (targetAddr s k) s ∧
      actTargetWrite k s = beginServed .servedWrite (targetAddr s k) s := by
  simp [actTargetRead, actTargetWrite, hon, hv, hm, hreal]

/-- In PASSIVE mode every target off V is live (R28). -/
theorem actTarget_passive (hon : s.ctl.shownOnCylinder = true) (hv : viewOnService s = false)
    (hm : s.svc.mode = .passive) :
    actTargetRead k s = beginLive .liveRead (targetAddr s k) s ∧
      actTargetWrite k s = beginLive .liveWrite (targetAddr s k) s := by
  simp [actTargetRead, actTargetWrite, hon, hv, hm]

/-- Targets without effect (R27). -/
theorem actTarget_ignored (h : s.ctl.shownOnCylinder = false ∨ (viewOnService s = false ∧ (s.svc.mode = .captive ∨
    (s.svc.mode = .active ∧ realAddr s (targetAddr s k) = false)))) :
    actTargetRead k s = s ∧ actTargetWrite k s = s := by
  rcases h with hoff | ⟨hv, hm | ⟨hm, hreal⟩⟩
  · simp [actTargetRead, actTargetWrite, hoff]
  · simp [actTargetRead, actTargetWrite, hv, hm]
  · simp [actTargetRead, actTargetWrite, hv, hm, hreal]

/-- A read of a RECOVERED or OVERLAY sector is served from its slot (R28, R203). -/
theorem decideRead_served {a : Addr} (h : entryStateCode s a = 2 ∨ entryStateCode s a = 4) :
    decideRead a s = beginServed .servedRead a s := by
  unfold decideRead
  unfold entryStateCode at h
  cases hentry : entryOf s a with
  | none => simp [hentry] at h
  | some e =>
    rcases hbody : e.body with _ | ⟨_ | _ | _, _, _, _⟩ <;> simp [hentry, hbody, EntryBody.stateCode] at h ⊢

/-- A served operation does not ask for the drive. -/
theorem awaitsDrive_beginServed {kind : OpKind} {a : Addr} : awaitsDrive (beginServed kind a s) = false := by
  simp [awaitsDrive, beginServed, newOp]

/-- Settles O29: the generated MATCH awaited, for the targets the device answers itself. -/
theorem targetsAreServed : Obligations.TargetsAreServed := by
  intro dt k s
  obtain ⟨work, idle, hbegin⟩ := begin_changes dt s
  rw [hbegin]
  intro b ⟨hop, hw, hdue⟩ hon a v served
  obtain ⟨hread, hwrite⟩ := exec_target_unoccupied (k := k) hbegin hop hw
  have still (kind : OpKind) (o : Order) : NothingDue (beginServed kind a (noted o b)) := by
    refine nothingDue_of_eq hdue (nextAct_congr rfl rfl rfl rfl rfl rfl rfl ?_)
    rw [awaitsDrive_none (s := b) hop]
    exact awaitsDrive_beginServed
  have onV (o : Order) := actTarget_onService (s := noted o b) (k := k) hon
  have off (o : Order) := actTarget_active (s := noted o b) (k := k) hon
  rw [hread, hwrite]
  refine ⟨fun hv => ⟨?_, ?_⟩, fun hv hm hreal => ⟨?_, fun hentry => ?_⟩⟩
  · exact congrArg Host.Outcome.next (settle_eq (onV (.targetRead k) hv).1 (still _ _))
  · exact congrArg Host.Outcome.next (settle_eq (onV (.targetWrite k) hv).2 (still _ _))
  · exact congrArg Host.Outcome.next (settle_eq (off (.targetWrite k) hv hm hreal).2 (still _ _))
  · exact congrArg Host.Outcome.next (settle_eq ((off (.targetRead k) hv hm hreal).1.trans
      (decideRead_served (s := noted (.targetRead k) b) hentry)) (still _ _))

/-- Settles O30: nothing but the order's place among the recent orders. -/
theorem targetsAreIgnored : Obligations.TargetsAreIgnored := by
  intro dt k s
  obtain ⟨work, idle, hbegin⟩ := begin_changes dt s
  rw [hbegin]
  intro b v ⟨hop, hw, hdue⟩ hignored after
  obtain ⟨hread, hwrite⟩ := exec_target_unoccupied (k := k) hbegin hop hw
  have ignored (o : Order) := actTarget_ignored (s := noted o b) (k := k) hignored
  rw [hread, hwrite]
  exact ⟨congrArg Host.Outcome.next (settle_eq (ignored _).1 hdue),
    congrArg Host.Outcome.next (settle_eq (ignored _).2 hdue)⟩

end Sys2Proof.Machine
end

section
/-!
PROOFS. The gates of an operation: READ GATE and its fall (R16, R29, R31, R32), WRITE GATE and its claim (R30, R41, R42).
-/

namespace Sys2Proof.Machine

variable {dt : Nat} {o : Op} {s b : State}

/-! ### READ GATE -/

theorem isRead_iff (k : OpKind) : k.isRead = true ↔ k = .servedRead ∨ k = .serviceRead ∨ k = .liveRead := by
  cases k <;> simp [OpKind.isRead]

theorem readGate_ignored (hb : begin dt s = b) (hop : b.ctl.op = some o)
    (h : ¬(o.phase = .awaitingGate ∧ o.kind.isRead = true)) : exec (.readGate dt) s = .next b := by
  show execReadGate dt s = _
  simp only [execReadGate, hb, hop, if_neg h]

/-- A served or service read sends its field at the served rate (R29, R31). -/
theorem readGate_sends (hb : begin dt s = b) (hop : b.ctl.op = some o) (hp : o.phase = .awaitingGate)
    (hk : o.kind = .servedRead ∨ o.kind = .serviceRead) {f : Field} (hf : servedField o b = f) :
    exec (.readGate dt) s = .next (emit (.serve f (servedRate b)) (transfer o b)) := by
  show execReadGate dt s = _
  rcases hk with hk | hk <;> simp [execReadGate, hb, hop, hp, hk, OpKind.isRead, hf]

theorem readGate_live (hb : begin dt s = b) (hop : b.ctl.op = some o) (hp : o.phase = .awaitingGate)
    (hk : o.kind = .liveRead) :
    exec (.readGate dt) s = .next (emit (.readGate true) { transfer o b with drv.readGate := true }) := by
  show execReadGate dt s = _
  simp [execReadGate, hb, hop, hp, hk, OpKind.isRead]

theorem servedField_image {e : Entry} (hk : o.kind = .servedRead) (he : entryOf s o.addr = some e)
    (hbody : e.body ≠ .pending) : servedField o s = readSlot s (e.body.slot?.getD 0) := by
  cases hslot : e.body with
  | pending => exact absurd hslot hbody
  | settled kind reads weak k => simp [servedField, hk, he, hslot, EntryBody.slot?]

/-- A read of a service sector sends the held response, the status frame built at MATCH, or zeros (R31). -/
theorem servedField_service (hk : o.kind = .serviceRead) : servedField o s =
    if o.addr.head = 0 ∧ o.addr.sec = 0 then s.svc.heldResponse
    else if o.addr.head = 0 ∧ o.addr.sec = 1 then o.built.getD (zeroField s.straps)
    else zeroField s.straps := by
  simp [servedField, hk]

/-- Settles O33: an ignored gate, and the field sent by kind and sector. -/
theorem readGateBeginsTransfer : Obligations.ReadGateBeginsTransfer := by
  intro dt o e f s
  obtain ⟨work, idle, hbegin⟩ := begin_changes dt s
  rw [hbegin]
  intro b hop reads going sends sector
  have hop' : b.ctl.op = some o := hop
  refine ⟨fun hignored => readGate_ignored hbegin hop' ?_, fun hp => ?accepted⟩
  · rintro ⟨hp, hread⟩
    rcases hignored with hphase | hkind
    · exact hphase hp
    · exact of_decide_eq_false hkind ((isRead_iff o.kind).1 hread)
  case accepted =>
    refine ⟨fun hk he hbody => ?_, fun hk h0 => ?_, fun hk h1 hbuilt => ?_, fun hk h0 h1 => ?_, fun hk => ?_⟩
    · exact readGate_sends hbegin hop' hp (.inl hk) (servedField_image (s := b) hk he hbody)
    · have h0 : o.addr.head = 0 ∧ o.addr.sec = 0 := of_decide_eq_true h0
      exact readGate_sends hbegin hop' hp (.inr hk) ((servedField_service hk).trans (if_pos h0))
    · have h1 : o.addr.head = 0 ∧ o.addr.sec = 1 := of_decide_eq_true h1
      refine readGate_sends hbegin hop' hp (.inr hk) ((servedField_service hk).trans ?_)
      rw [if_neg (by omega), if_pos h1, hbuilt, Option.getD_some]
    · have h0 : ¬(o.addr.head = 0 ∧ o.addr.sec = 0) := of_decide_eq_false h0
      have h1 : ¬(o.addr.head = 0 ∧ o.addr.sec = 1) := of_decide_eq_false h1
      exact readGate_sends hbegin hop' hp (.inr hk)
        ((servedField_service hk).trans ((if_neg h0).trans (if_neg h1)))
    · exact readGate_live hbegin hop' hp hk

/-! ### READ GATE's fall and the end of a served transfer -/

theorem readGateFalls_ends (hb : begin dt s = b) (hop : b.ctl.op = some o) (hp : o.phase = .transferring)
    (hk : o.kind.isRead = true) : exec (.readGateFalls dt) s = .next (settle (endOperation b)) := by
  show execReadGateFalls dt s = _
  simp [execReadGateFalls, hb, hop, hp, hk]

theorem servedTransferEnds_ends (hb : begin dt s = b) (hop : b.ctl.op = some o) (hp : o.phase = .transferring)
    (hk : o.kind = .servedRead ∨ o.kind = .serviceRead) (hf : o.fieldEnded = false) :
    exec (.servedTransferEnds dt) s =
      .next (emit .serveEnds { b with ctl.op := some { o with fieldEnded := true } }) := by
  show execServedTransferEnds dt s = _
  simp [execServedTransferEnds, hb, hop, hp, hk, hf, endField_eq]

/-- A live read of the controller's ends: its gate falls, its capture ends, its quiet interval starts (R12, R131). -/
theorem endOperation_liveTransfer (hop : s.ctl.op = some o) (hk : o.kind = .liveRead) (hhas : ControllerHas s)
    (hc : (s.drv.capture.all fun c => decide (c.party = .live)) = true) : endOperation s = { s with
      ctl.op := none
      drv.capture := none
      drv.readGate := false
      drv.quietDue := some (s.clock + s.svc.params.quietInterval * 1000)
      out := s.out ++ if s.drv.readGate then [.readGate false] else [] } := by
  obtain ⟨-, -, htravel, -, -, -, hholder, -⟩ := hhas
  rw [endOperation_liveRead hop hk hholder hc (by rw [htravel]; rfl), ← htravel]

/-- Settles O34: the sending stops, or the live capture ends with the gate and the quiet interval starts. -/
theorem readTransfersEnd : Obligations.ReadTransfersEnd := by
  intro dt o s
  obtain ⟨work, idle, hbegin⟩ := begin_changes dt s
  rw [hbegin]
  intro b hop hp
  have hop' : b.ctl.op = some o := hop
  refine ⟨fun hk => ⟨fun hdue => ?sent, fun hf => ?ended⟩, fun hk hhas hcapture => ?live⟩
  case sent =>
    have hread : o.kind.isRead = true := (isRead_iff o.kind).2 (by tauto)
    have hwaits : awaitsDrive b = false :=
      awaitsDrive_of_kind hop' (by rcases hk with hk | hk <;> simp [hk])
    rw [readGateFalls_ends hbegin hop' hp hread, endOperation_sentRead hop' hk]
    refine congrArg Host.Outcome.next ((settle_of_ended (t := { b with ctl.op := none, out := _ }) hdue hwaits
      rfl rfl rfl rfl rfl rfl).trans ?_)
    cases hended : o.fieldEnded <;> simp [hp, b]
  case ended => exact servedTransferEnds_ends hbegin hop' hp hk hf
  case live =>
    have hread : o.kind.isRead = true := (isRead_iff o.kind).2 (.inr (.inr hk))
    obtain ⟨hw, hstep, htravel, hepisode, hheld, hpass, hholder, hrest⟩ := id hhas
    rw [readGateFalls_ends hbegin hop' hp hread, endOperation_liveTransfer hop' hk hhas hcapture]
    exact congrArg Host.Outcome.next (settle_still
      (nothingDue_of_controllerRests hw rfl hholder hpass hheld htravel hrest))

/-! ### WRITE GATE -/

theorem freeEntries_eq (s : State) :
    freeEntries s = 1024 - (s.map.entries.length + if s.map.claim.any Claim.entry then 1 else 0) := by
  cases hclaim : s.map.claim <;> simp [freeEntries, entriesClaimed, hclaim, Config.capacity, Nat.sub_sub]

theorem freeSlots_eq (s : State) :
    freeSlots s = 1024 - ((slotsInUse s).length + if (s.map.claim.bind Claim.slot).isSome then 1 else 0) := by
  cases hclaim : s.map.claim with
  | none => simp [freeSlots, slotsClaimed, hclaim, Config.capacity]
  | some c => cases hslot : c.slot <;> simp [freeSlots, slotsClaimed, hclaim, hslot, Config.capacity, Nat.sub_sub]

/-- What a claim holds is free no longer (R41). -/
theorem freeEntries_claimed {c : Claim} (h : s.map.claim = none) :
    freeEntries { s with map.claim := some c } = freeEntries s - if c.entry then 1 else 0 := by
  simp [freeEntries_eq, h, Nat.sub_sub]

theorem freeSlots_claimed {c : Claim} (h : s.map.claim = none) :
    freeSlots { s with map.claim := some c } = freeSlots s - if c.slot.isSome then 1 else 0 := by
  simp [freeSlots_eq, slotsInUse, h, Nat.sub_sub]

theorem shownProtect_iff (hm : s.svc.mode ≠ .passive) :
    shownProtect s = true ↔ freeEntries s = 0 ∨ freeSlots s = 0 := by
  simp [shownProtect, isPassive, hm]

theorem claimFor_none (he : entryStateCode s o.addr = 0) : claimFor s o.addr =
    if freeEntries s = 0 ∨ freeSlots s = 0 then none else some ⟨o.addr, true, some (freeSlot s)⟩ := by
  unfold claimFor
  unfold entryStateCode at he
  cases hentry : entryOf s o.addr with
  | none => rfl
  | some e => rcases hbody : e.body with _ | ⟨_ | _ | _, _, _, _⟩ <;> simp [hentry, hbody, EntryBody.stateCode] at he

theorem claimFor_pending (he : entryStateCode s o.addr = 1) : claimFor s o.addr =
    if freeSlots s = 0 then none else some ⟨o.addr, false, some (freeSlot s)⟩ := by
  unfold claimFor
  unfold entryStateCode at he
  cases hentry : entryOf s o.addr with
  | none => simp [hentry] at he
  | some e => rcases hbody : e.body with _ | ⟨_ | _ | _, _, _, _⟩ <;> simp [hentry, hbody, EntryBody.stateCode] at he ⊢

theorem claimFor_settled (he : 2 ≤ entryStateCode s o.addr) : claimFor s o.addr = some ⟨o.addr, false, none⟩ := by
  unfold claimFor
  unfold entryStateCode at he
  cases hentry : entryOf s o.addr with
  | none => simp [hentry] at he
  | some e => rcases hbody : e.body with _ | ⟨_ | _ | _, _, _, _⟩ <;> simp [hentry, hbody, EntryBody.stateCode] at he ⊢

section
variable (hb : begin dt s = b) (hop : b.ctl.op = some o) (hp : o.phase = .awaitingGate) (hr : o.gateRefused = false)
include hb hop hp hr

theorem writeGate_claims {c : Claim} (hk : o.kind = .servedWrite) (hc : claimFor b o.addr = some c) :
    exec (.writeGate dt) s = .next (transfer o { b with map.claim := some c }) := by
  show execWriteGate dt s = _
  simp [execWriteGate, hb, hop, hp, hr, hk, hc]

theorem writeGate_refused (hk : o.kind = .servedWrite) (hc : claimFor b o.addr = none) :
    exec (.writeGate dt) s =
      .next { b with ctl.shownFault := true, ctl.op := some { o with gateRefused := true } } := by
  show execWriteGate dt s = _
  simp [execWriteGate, hb, hop, hp, hr, hk, hc]

theorem writeGate_service (hk : o.kind = .serviceWrite) : exec (.writeGate dt) s = .next (transfer o b) := by
  show execWriteGate dt s = _
  simp [execWriteGate, hb, hop, hp, hr, hk]

theorem writeGate_live (hk : o.kind = .liveWrite) :
    exec (.writeGate dt) s = .next (emit (.writeGate true) { transfer o b with drv.writeGate := true }) := by
  show execWriteGate dt s = _
  simp [execWriteGate, hb, hop, hp, hr, hk]

end

/-- Settles O35: the claim by the sector's entry, its counts, and the two gates that claim nothing. -/
theorem writeGateClaims : Obligations.WriteGateClaims := by
  intro dt o s
  obtain ⟨work, idle, hbegin⟩ := begin_changes dt s
  rw [hbegin]
  intro b
  refine ⟨freeEntries_eq s, freeSlots_eq s, fun hop hp hr => ?_⟩
  have hop' : b.ctl.op = some o := hop
  intro going claims refused entryState
  have claimed (hk : o.kind = .servedWrite) (entry : Bool) (slot : Option Nat)
      (hc : claimFor b o.addr = some ⟨o.addr, entry, slot⟩) : claims entry slot := by
    refine ⟨writeGate_claims hbegin hop' hp hr hk hc, fun hnone => ?_⟩
    have hentries := freeEntries_claimed (s := going) (c := ⟨o.addr, entry, slot⟩) hnone
    have hslots := freeSlots_claimed (s := going) (c := ⟨o.addr, entry, slot⟩) hnone
    refine ⟨hentries, hslots, fun hm => ?_⟩
    refine (shownProtect_iff (s := { going with map.claim := _ }) hm).trans ?_
    rw [hentries, hslots, Nat.sub_eq_zero_iff_le, Nat.sub_eq_zero_iff_le]
    rfl
  have full (hk : o.kind = .servedWrite) (hc : claimFor b o.addr = none)
      (hfull : freeEntries s = 0 ∨ freeSlots s = 0) : refused :=
    ⟨writeGate_refused hbegin hop' hp hr hk hc,
      fun hm => ⟨(shownProtect_iff hm).2 hfull, (shownProtect_iff (s := { b with ctl := _ }) hm).2 hfull⟩⟩
  refine ⟨fun hk => ⟨?_, ?_, ?_, ?_, ?_⟩, writeGate_service hbegin hop' hp hr, writeGate_live hbegin hop' hp hr⟩
  · exact fun he hfull => full hk ((claimFor_none (s := b) he).trans (if_pos hfull)) hfull
  · exact fun he hentries hslots => claimed hk _ _ ((claimFor_none (s := b) he).trans
      (if_neg (not_or.2 ⟨hentries.ne', hslots.ne'⟩)))
  · exact fun he hfull => full hk ((claimFor_pending (s := b) he).trans (if_pos hfull)) (.inr hfull)
  · exact fun he hslots => claimed hk _ _ ((claimFor_pending (s := b) he).trans (if_neg hslots.ne'))
  · exact fun he => claimed hk _ _ (claimFor_settled (s := b) he)

end Sys2Proof.Machine
end

section
/-!
PROOFS. Positioning: what each move of a travel does (R95, R121, R122), the chain from HEAD to MARGIN, and the re-seat to
the controller view.
-/

namespace Sys2Proof.Machine

variable {s u : State} {t : Travel} {ms : List Move}

/-! ### One move -/

/-- The holder's next act is a move of its travel: nothing is in flight, and no held order comes first (R20, R95). -/
abbrev MayMove (s : State) : Prop :=
  Quiescent s ∧ (s.drv.holder = .recovery ∨ s.drv.holder = .sweep ∨ s.drv.holder = .controller ∧ s.drv.heldOrders = [])

theorem Acts.move (h : MayMove s) (ht : s.drv.travel = some t) (hmove : makeMove t s = u) : Acts 1 s u := by
  obtain ⟨hquiet, hholder⟩ := h
  refine .one (x := .move) ?_ (by simp only [doAct, ht, hmove])
  rw [nextAct_of_quiescent hquiet]
  rcases hholder with hh | hh | ⟨hh, hheld⟩
  · simp [holderAct, hh, ht]
  · simp [holderAct, hh, ht]
  · simp [holderAct, hh, hheld, ht]

/-- The travel with the moves that are left. -/
abbrev leaving (t : Travel) (ms : List Move) (s : State) : State := { s with drv.travel := some { t with moves := ms } }

theorem makeMove_clear (h : t.moves = .clearIfError :: ms) :
    makeMove t s = { leaving t ms s with
      drv.lines.positionError := false
      out := s.out ++ if s.drv.lines.positionError then [.order .clear] else [] } := by
  cases herror : s.drv.lines.positionError <;> simp [makeMove, h, herror, issueOrder, emit]
  rw [← herror]

theorem makeMove_there (h : t.moves = .reach :: ms) (hthere : s.drv.record.cyl = some t.cyl) :
    makeMove t s = leaving t ms s := by
  simp [makeMove, h, hthere]

/-- HEAD is issued where the drive's head differs (R95). -/
abbrev selected (t : Travel) (ms : List Move) (s : State) : State :=
  { leaving t ms s with
    drv.record.head := some t.head
    out := s.out ++ if s.drv.record.head = some t.head then [] else [.order (.head t.head)] }

theorem makeMove_select (h : t.moves = .select :: ms) : makeMove t s = selected t ms s := by
  by_cases hsame : s.drv.record.head = some t.head
  · simp [makeMove, h, hsame]
    rw [← hsame]
  · simp [makeMove, h, hsame, issueOrder, emit]

theorem makeMove_emptyCopies (h : t.moves = .emptyCopies :: ms) :
    makeMove t s = { leaving t ms s with seq.copies := [] } := by
  simp [makeMove, h]

/-- A MARGIN that leaves the offset is no step: it is issued where the strobe differs (R95, R121). -/
theorem makeMove_strobe (h : t.moves = .margin :: ms) (hoffset : s.drv.record.offset = some t.offset) :
    makeMove t s = { leaving t ms s with
      drv.record.strobe := some t.strobe
      out := s.out ++ if s.drv.record.strobe = some t.strobe then [] else [.order (.margin t.strobe t.offset)] } := by
  by_cases hsame : s.drv.record.strobe = some t.strobe
  · simp [makeMove, h, hsame, hoffset]
    rw [← hsame, ← hoffset]
  · simp [makeMove, h, hsame, hoffset, isStep, issueOrder, emit]

/-- A travel's step in flight, a POSITION ERROR cleared before the first (R121). -/
abbrev stepping (o : Order) (m : Move) (unknown : Bool) (t : Travel) (ms : List Move) (s : State) : State :=
  { s with
    drv.lines.positionError := t.stepped && s.drv.lines.positionError
    drv.step := some ⟨o, some m, s.clock, s.svc.params.positionTimeout * 1000, unknown⟩
    drv.travel := some { t with moves := ms, stepped := true }
    out := s.out ++ (if !t.stepped && s.drv.lines.positionError then [.order .clear] else []) ++ [.order o] }

/-- A seek leaves the drive on no cylinder that is known (R120). -/
abbrev seeking (o : Order) (m : Move) (t : Travel) (ms : List Move) (s : State) : State :=
  { stepping o m false t ms s with drv.lines.onCylinder := false, drv.record.cyl := none }

theorem travelStep_seeks {o : Order} {m : Move} (ho : o = .ret ∨ ∃ c, o = .position c) :
    travelStep o m { t with moves := ms } (leaving t ms s) = seeking o m t ms s := by
  rcases ho with rfl | ⟨c, rfl⟩ <;> cases hstepped : t.stepped <;> cases herror : s.drv.lines.positionError <;>
    simp [travelStep, hstepped, herror, issueStep, issueOrder, emit, Config.ms]

theorem makeMove_restore (h : t.moves = .restore :: ms) : makeMove t s = seeking .ret .restore t ms s := by
  simp only [makeMove, h]
  exact travelStep_seeks (.inl rfl)

theorem makeMove_backTo (h : t.moves = .backTo :: ms) : makeMove t s = seeking (.position t.cyl) .backTo t ms s := by
  simp only [makeMove, h]
  exact travelStep_seeks (.inr ⟨_, rfl⟩)

theorem makeMove_away (h : t.moves = .reach :: ms) (haway : s.drv.record.cyl ≠ some t.cyl) :
    makeMove t s = seeking (.position t.cyl) .reach t ms s := by
  simp only [makeMove, h]
  exact (if_neg haway).trans (travelStep_seeks (.inr ⟨_, rfl⟩))

/-- A MARGIN that changes the offset is a step, and one from an UNKNOWN offset leaves the line (R120, R121). -/
abbrev settlingStep (t : Travel) (ms : List Move) (s : State) : State :=
  { stepping (.margin t.strobe t.offset) .margin s.drv.record.offset.isNone t ms s with
    drv.lines.onCylinder := s.drv.record.offset.isNone && s.drv.lines.onCylinder
    drv.record.strobe := some t.strobe
    drv.record.offset := none }

theorem makeMove_settles (h : t.moves = .margin :: ms) (hoffset : s.drv.record.offset ≠ some t.offset) :
    makeMove t s = settlingStep t ms s := by
  have hstep : makeMove t s =
      travelStep (.margin t.strobe t.offset) .margin { t with moves := ms } (leaving t ms s) := by
    simp [makeMove, h, hoffset, isStep]
  rw [hstep]
  cases hstepped : t.stepped <;> cases herror : s.drv.lines.positionError <;> cases hrecord : s.drv.record.offset <;>
    simp_all [travelStep, issueStep, issueOrder, emit, Config.ms]

/-! ### A step issued -/

/-- Once a travel has a step in flight nothing is due before it ends. -/
theorem nothingDue_of_stepping (h : Unhindered s) (hstep : s.drv.step.isSome = true) : NothingDue s :=
  nothingDue_of_inFlight h (by simp [hstep])

/-! ### From HEAD to MARGIN -/

/-- The orders of HEAD and of a MARGIN that is no step, where the drive differs (R95). -/
abbrev aligning (t : Travel) (s : State) : List Signal :=
  (if s.drv.record.head = some t.head then [] else [.order (.head t.head)]) ++
    if s.drv.record.strobe = some t.strobe then [] else [.order (.margin t.strobe t.offset)]

/-- The drive aligned with its travel. -/
abbrev aligned (t : Travel) (s : State) : State :=
  { leaving t [] s with
    drv.record := ⟨s.drv.record.cyl, some t.head, some t.strobe, some t.offset⟩
    out := s.out ++ aligning t s }

theorem acts_align (h : MayMove s) (ht : s.drv.travel = some t) (hmoves : t.moves = [.select, .margin])
    (hoffset : s.drv.record.offset = some t.offset) : Acts 2 s (aligned t s) := by
  have hselect : Acts 1 s (selected t [.margin] s) := .move h ht (makeMove_select hmoves)
  have hmargin := makeMove_strobe (t := { t with moves := [.margin] }) (s := selected t [.margin] s) rfl hoffset
  refine hselect.trans (.move h rfl (hmargin.trans ?_))
  simp [aligned, aligning, ← hoffset]

/-- HEAD, then a MARGIN that is a step (R95, R121). -/
theorem acts_selectSettle (h : MayMove s) (ht : s.drv.travel = some t) (hmoves : t.moves = [.select, .margin])
    (hoffset : s.drv.record.offset ≠ some t.offset) (hclear : s.drv.lines.positionError = false) :
    Acts 2 s { settlingStep t [] s with
      drv.record := ⟨s.drv.record.cyl, some t.head, some t.strobe, none⟩
      out := s.out ++ (if s.drv.record.head = some t.head then [] else [.order (.head t.head)]) ++
        [.order (.margin t.strobe t.offset)] } := by
  have hselect : Acts 1 s (selected t [.margin] s) := .move h ht (makeMove_select hmoves)
  have hmargin := makeMove_settles (t := { t with moves := [.margin] }) (s := selected t [.margin] s) rfl hoffset
  refine hselect.trans (.move h rfl (hmargin.trans ?_))
  simp [settlingStep, hclear]

/-! ### The re-seat to the controller view -/

/-- The controller holds the drive and waits for it, with no re-seat under way (R32, R36, R122). -/
abbrev Waits (s : State) : Prop :=
  Quiescent s ∧ s.drv.holder = .controller ∧ s.drv.heldOrders = [] ∧ s.drv.travel = none ∧ awaitsDrive s = true

/-- The re-seat with its POSITION ERROR cleared: the drive is to be brought to the view (R121, R122). -/
abbrev reseating (s : State) : State :=
  { s with
    drv.lines.positionError := false
    drv.quietDue := none
    drv.travel := some { reseatTravel s with moves := [.reach, .select, .margin] }
    out := s.out ++ if s.drv.lines.positionError then [.order .clear] else [] }

theorem reseatTravel_live (hw : s.ctl.withhold = none) : (reseatTravel s).purpose = .reseatLive := by
  simp [reseatTravel, hw]

theorem reseatTravel_withhold (hw : s.ctl.withhold.isSome = true) : (reseatTravel s).purpose = .reseatWithhold := by
  simp [reseatTravel, hw]

theorem acts_reseat (h : Waits s) : Acts 2 s (reseating s) := by
  obtain ⟨hquiet, hholder, hheld, htravel, hawaits⟩ := h
  have hdue : nextAct s = some .reseat := by
    rw [nextAct_of_quiescent hquiet]
    simp [holderAct, hholder, hheld, htravel, hawaits]
  have hbegins : Acts 1 s { s with drv.travel := some (reseatTravel s), drv.quietDue := none } := .one hdue rfl
  exact hbegins.trans (.move ⟨hquiet, .inr (.inr ⟨hholder, hheld⟩)⟩ rfl (makeMove_clear rfl))

theorem reseating_mayMove (h : Waits s) : MayMove (reseating s) := by
  obtain ⟨hquiet, hholder, hheld, -⟩ := h
  exact ⟨hquiet, .inr (.inr ⟨hholder, hheld⟩)⟩

/-- A drive on another cylinder is brought to the view by a POSITION step (R122). -/
theorem settles_reseat_seeks {p : Purpose} (h : Waits s) (hp : (reseatTravel s).purpose = p)
    (haway : s.drv.record.cyl ≠ some s.ctl.cyl) : Settles 3 s
    { s with
      drv.lines.positionError := false
      drv.lines.onCylinder := false
      drv.record.cyl := none
      drv.quietDue := none
      drv.step := some ⟨.position s.ctl.cyl, some .reach, s.clock, s.svc.params.positionTimeout * 1000, false⟩
      drv.travel := some ⟨p, s.ctl.cyl, s.ctl.head, s.ctl.strobe, s.ctl.offset, [.select, .margin], true, none⟩
      out := s.out ++ (if s.drv.lines.positionError then [.order .clear] else []) ++
        [.order (.position s.ctl.cyl)] } := by
  subst hp
  have hseek := makeMove_away (t := { reseatTravel s with moves := [.reach, .select, .margin] }) (s := reseating s) rfl haway
  refine .of_acts ((acts_reseat h).trans (.move (reseating_mayMove h) rfl (hseek.trans ?_))) ?_
  · simp [seeking, reseatTravel]
  · obtain ⟨⟨hfree, -⟩, -⟩ := h
    exact nothingDue_of_stepping hfree rfl

/-- A drive on the view's cylinder needs no seek (R122). -/
theorem acts_reseat_there (h : Waits s) (hthere : s.drv.record.cyl = some s.ctl.cyl) :
    Acts 3 s (leaving (reseatTravel s) [.select, .margin] (reseating s)) :=
  (acts_reseat h).trans (.move (reseating_mayMove h) rfl
    (makeMove_there (t := { reseatTravel s with moves := [.reach, .select, .margin] }) rfl hthere))

/-- A drive at another offset is brought to the view by HEAD and a MARGIN step (R122). -/
theorem settles_reseat_settles {p : Purpose} (h : Waits s) (hp : (reseatTravel s).purpose = p)
    (hthere : s.drv.record.cyl = some s.ctl.cyl) (hoffset : s.drv.record.offset ≠ some s.ctl.offset) : Settles 5 s
    { s with
      drv.lines.positionError := false
      drv.lines.onCylinder := s.drv.record.offset.isNone && s.drv.lines.onCylinder
      drv.record := ⟨some s.ctl.cyl, some s.ctl.head, some s.ctl.strobe, none⟩
      drv.quietDue := none
      drv.step := some ⟨.margin s.ctl.strobe s.ctl.offset, some .margin, s.clock,
        s.svc.params.positionTimeout * 1000, s.drv.record.offset.isNone⟩
      drv.travel := some ⟨p, s.ctl.cyl, s.ctl.head, s.ctl.strobe, s.ctl.offset, [], true, none⟩
      out := s.out ++ (if s.drv.lines.positionError then [.order .clear] else []) ++
        (if s.drv.record.head = some s.ctl.head then [] else [.order (.head s.ctl.head)]) ++
        [.order (.margin s.ctl.strobe s.ctl.offset)] } := by
  subst hp
  have hsettle := acts_selectSettle (t := { reseatTravel s with moves := [.select, .margin] })
    (s := leaving (reseatTravel s) [.select, .margin] (reseating s)) (reseating_mayMove (s := s) h) rfl rfl hoffset rfl
  refine Settles.of_eq (.of_acts ((acts_reseat_there h hthere).trans hsettle) ?_) ?_
  · obtain ⟨⟨hfree, -⟩, -⟩ := h
    exact nothingDue_of_stepping hfree rfl
  · simp [reseatTravel, hthere]
    rfl

/-- A re-seat complete: the drive agrees with the view, and the travel has no move left (R122). -/
abbrev reseated (s : State) : State :=
  { s with
    drv.lines.positionError := false
    drv.quietDue := none
    drv.record := ⟨some s.ctl.cyl, some s.ctl.head, some s.ctl.strobe, some s.ctl.offset⟩
    drv.travel := some { reseatTravel s with moves := [] }
    out := s.out ++ (if s.drv.lines.positionError then [.order .clear] else []) ++
      (if s.drv.record.head = some s.ctl.head then [] else [.order (.head s.ctl.head)]) ++
      (if s.drv.record.strobe = some s.ctl.strobe then [] else [.order (.margin s.ctl.strobe s.ctl.offset)]) }

theorem acts_reseated (h : Waits s) (hthere : s.drv.record.cyl = some s.ctl.cyl)
    (hoffset : s.drv.record.offset = some s.ctl.offset) : Acts 5 s (reseated s) := by
  have halign := acts_align (t := { reseatTravel s with moves := [.select, .margin] })
    (s := leaving (reseatTravel s) [.select, .margin] (reseating s)) (reseating_mayMove (s := s) h) rfl rfl hoffset
  have hleaves : aligned { reseatTravel s with moves := [.select, .margin] }
      (leaving (reseatTravel s) [.select, .margin] (reseating s)) = reseated s := by
    simp [reseatTravel, hthere]
  exact hleaves ▸ (acts_reseat_there h hthere).trans halign

/-- The live target is issued when the drive agrees with the view: a read's capture begins (R12, R32). -/
abbrev targetIssued (o : Op) (s : State) : State :=
  { s with
    ctl.op := some { o with phase := .awaitingMatch }
    drv.travel := none
    drv.capture := if o.kind = .liveRead then some ⟨.live, o.addr, false, 0⟩ else s.drv.capture
    out := s.out ++ [.order (if o.kind = .liveRead then .targetRead o.addr.sec else .targetWrite o.addr.sec)] }

theorem makeMove_arrives_live {o : Op} (hmoves : t.moves = []) (hretry : t.retry = none) (hp : t.purpose = .reseatLive)
    (hop : s.ctl.op = some o) (hk : o.kind = .liveRead ∨ o.kind = .liveWrite) : makeMove t s = targetIssued o s := by
  rcases hk with hk | hk <;>
    simp [makeMove, hmoves, hretry, arrive, hp, issueTarget, hop, hk, issueOrder, emit, targetIssued]

/-- Nothing is due once the live target is issued: the controller waits for the drive's MATCH. -/
theorem nothingDue_targetIssued {o : Op} (h : Quiescent s) (hholder : s.drv.holder = .controller)
    (hheld : s.drv.heldOrders = []) : NothingDue (targetIssued o s) := by
  obtain ⟨hfree, hstep, hcapture, hepisode⟩ := id h
  by_cases hk : o.kind = .liveRead
  · exact nothingDue_of_inFlight hfree (by simp [hk])
  · have hquiet : Quiescent (targetIssued o s) := ⟨hfree, hstep, (if_neg hk).trans hcapture, hepisode⟩
    rw [NothingDue, nextAct_of_quiescent hquiet]
    simp [holderAct, hholder, hheld, awaitsDrive]

/-- A drive that stands where the view does, but for head and strobe, takes the live target at once (R32, R122). -/
theorem settles_reseat_targets {o : Op} (h : Waits s) (hw : s.ctl.withhold = none)
    (hthere : s.drv.record.cyl = some s.ctl.cyl) (hoffset : s.drv.record.offset = some s.ctl.offset)
    (hop : s.ctl.op = some o) (hk : o.kind = .liveRead ∨ o.kind = .liveWrite) :
    Settles 6 s { targetIssued o (reseated s) with
      drv.travel := s.drv.travel
      drv.capture := if o.kind = .liveRead then some ⟨.live, o.addr, false, 0⟩ else none } := by
  obtain ⟨hquiet, hholder, hheld, htravel, -⟩ := id h
  obtain ⟨-, -, hcapture, -⟩ := id hquiet
  have hpurpose := reseatTravel_live hw
  have hissued : Settles 6 s (targetIssued o (reseated s)) := by
    refine .of_acts ((acts_reseated h hthere hoffset).trans
      (.move ⟨hquiet, .inr (.inr ⟨hholder, hheld⟩)⟩ rfl (makeMove_arrives_live rfl rfl hpurpose hop hk))) ?_
    exact nothingDue_targetIssued (s := reseated s) hquiet hholder hheld
  refine hissued.of_eq ?_
  rw [targetIssued, hcapture, htravel]

end Sys2Proof.Machine
end

section
/-!
PROOFS. Targets that need the drive: the live operation asks for it, a device party yields it, and a withholding begins
(R28, R32, R36, R69, R75, R132).
-/

namespace Sys2Proof.Machine

variable {s : State} {a : Addr} {k : Nat} {kind : OpKind}

/-! ### A live target that needs the drive -/

/-- A read the map does not serve and withholding does not take is live (R28). -/
theorem decideRead_live (h : entryStateCode s a = 0 ∨ entryStateCode s a = 3 ∨
    (entryStateCode s a = 1 ∧ mayWithhold s = false)) : decideRead a s = beginLive .liveRead a s := by
  unfold decideRead
  unfold entryStateCode at h
  cases hentry : entryOf s a with
  | none => rfl
  | some e =>
    rcases hbody : e.body with _ | ⟨_ | _ | _, _, _, _⟩ <;> simp [hentry, hbody, EntryBody.stateCode] at h ⊢
    simp [h]

theorem actTargetRead_live (hon : s.ctl.shownOnCylinder = true) (hv : viewOnService s = false)
    (h : s.svc.mode = .passive ∨ (s.svc.mode = .active ∧ realAddr s (targetAddr s k) = true ∧
      (entryStateCode s (targetAddr s k) = 0 ∨ entryStateCode s (targetAddr s k) = 3 ∨
        (entryStateCode s (targetAddr s k) = 1 ∧ mayWithhold s = false)))) :
    actTargetRead k s = beginLive .liveRead (targetAddr s k) s := by
  rcases h with hm | ⟨hm, hreal, hentry⟩
  · exact (actTarget_passive hon hv hm).1
  · exact (actTarget_active hon hv hm hreal).1.trans (decideRead_live hentry)

/-- A LOST drive answers a live target of ACTIVE mode with shown FAULT (R32). -/
theorem beginLive_lost (hm : s.svc.mode = .active) (hlost : s.drv.condition = .lost) :
    beginLive kind a s = { s with ctl.op := none, ctl.shownFault := true } := by
  simp [beginLive, isPassive, hm, hlost]

/-- A live operation that waits for the drive; a FAULT raised already is shown (R25, R32). -/
abbrev wanting (kind : OpKind) (a : Addr) (s : State) : State :=
  { s with
    ctl.op := some ⟨kind, a, .awaitingDrive, none, false, false, none⟩
    ctl.shownFault := s.ctl.shownFault || s.drv.lines.fault }

theorem beginLive_wants (h : s.svc.mode = .passive ∨ s.drv.condition = .turning) :
    beginLive kind a s = takeDrive (wanting kind a s) := by
  refine if_neg ?_
  rcases h with hm | hturning
  · simp [isPassive, hm]
  · simp [hturning]

/-- A drive that is free is LOST with nothing due: the device has no use for it. -/
theorem nothingDue_of_driveFree_lost (h : DriveFree s) (hlost : s.drv.condition = .lost) : NothingDue s := by
  obtain ⟨hop, hw, hstep, htravel, hcapture, hepisode, hheld, hpass, hholder, hrest⟩ := h
  cases hh : s.drv.holder with
  | nobody => exact nothingDue_of_nobody hh hpass hw hrest (headMayRun_of_lost hlost) (sweepMayRun_of_lost hlost)
  | controller => exact nothingDue_of_controllerRests hw hop hh hpass hheld htravel hrest
  | recovery => simp [hh, Holder.isDevice] at hholder
  | sweep => simp [hh, Holder.isDevice] at hholder

/-- The controller, with a free drive taken, waits for it. -/
theorem waits_of_driveFree (h : DriveFree s) (hk : kind = .liveRead ∨ kind = .liveWrite) :
    takeDrive (wanting kind a s) = controllers (wanting kind a s) ∧ Waits (controllers (wanting kind a s)) := by
  obtain ⟨hop, hw, hstep, htravel, hcapture, hepisode, hheld, hpass, hholder, hrest⟩ := h
  refine ⟨takeDrive_free hholder hpass, ⟨⟨hpass, hrest, noWithhold hw, sweepYields_of_holder (by simp)⟩, hstep, hcapture,
    hepisode⟩, rfl, hheld, htravel, ?_⟩
  rcases hk with rfl | rfl <;> simp [awaitsDrive]

/-! ### A device party yields the drive -/

theorem interruptSweep_sets (s : State) : interruptSweep s =
    { s with sweep := if s.sweep.state = .sweeping then { resetTrack s.sweep with state := .waiting } else s.sweep } := by
  by_cases h : s.sweep.state = .sweeping <;> simp [interruptSweep, h]

theorem setHolder_controller (h : restDue s = false) :
    setHolder .controller s = { s with drv.holder := .controller } := by
  simp [setHolder, h, Holder.isDevice]

/-- What a device party in hand loses when the controller takes the drive: an ACTIVE job waits, a track read is interrupted,
positioning, episode and capture are dropped (R69, R132, R156). -/
abbrev yielding (s : State) : State :=
  { s with
    seq.queue := s.seq.queue.map fun j => if j.state = .active then { j with state := .waiting } else j
    sweep := if s.sweep.state = .sweeping then { resetTrack s.sweep with state := .waiting } else s.sweep
    drv.quietDue := none
    drv.travel := none
    drv.episode := none
    drv.capture := none
    drv.readGate := s.drv.readGate && s.drv.capture.isNone
    out := s.out ++ if s.drv.readGate && s.drv.capture.isSome then [.readGate false] else [] }

/-- A device party's work dropped, its own capture with it (R12, R132). -/
theorem dropWork_device (hc : (s.drv.capture.all fun c => decide (c.party ≠ .live)) = true) : dropWork s =
    { s with
      drv.travel := none
      drv.episode := none
      drv.capture := none
      drv.readGate := s.drv.readGate && s.drv.capture.isNone
      out := s.out ++ if s.drv.readGate && s.drv.capture.isSome then [.readGate false] else [] } := by
  have hnone : (if s.drv.capture.isSome then none else s.drv.capture) = none := by cases s.drv.capture <;> rfl
  rw [dropWork_eq, deviceCapture_eq hc, hnone, Option.not_isSome]

theorem takeDrive_device (hd : s.drv.holder.isDevice = true)
    (hc : (s.drv.capture.all fun c => decide (c.party ≠ .live)) = true) :
    takeDrive s = if s.drv.step.isSome then { yielding s with drv.passOn := .toController }
      else setHolder .controller (yielding s) := by
  have hyields : dropWork (interruptSweep (standDown { s with drv.quietDue := none })) = yielding s := by
    rw [interruptSweep_sets]
    exact dropWork_device hc
  rw [takeDrive, if_pos hd, hyields]

/-- While a step of a party that must pass the drive on is in flight, nothing is due (R132, R134). -/
theorem nothingDue_of_passing (hpass : s.drv.passOn ≠ .stays) (hstep : s.drv.step.isSome = true)
    (hw : s.ctl.withhold = none) (hrest : restDue s = false) : NothingDue s := by
  obtain ⟨st, hst⟩ := Option.isSome_iff_exists.1 hstep
  simp [NothingDue, nextAct, restMeetsWithhold, limitEnds, sweepYields, hpass, hst, hw, hrest]

/-! ### The obligation on live targets -/

theorem noted_off {o : Order} (hv : viewOnService s = false) :
    noted o s = { s with ctl.recentOrders := pushRecent ⟨o, seconds s⟩ s.ctl.recentOrders } := by
  rw [noted, recorded, hv]
  rfl

theorem mayWithhold_eq (s : State) : mayWithhold s =
    (decide (0 < s.svc.params.withholdLimit) && decide (s.drv.condition = .turning) && !s.drv.resting) := by
  rw [mayWithhold, Bool.decide_and]

/-- Settles O31: the free drive sought, settled or targeted by where it stands, and the party that yields first. -/
theorem liveTargetsReachDrive : Obligations.LiveTargetsReachDrive := by
  intro dt k s
  obtain ⟨work, idle, hbegin⟩ := begin_changes dt s
  rw [hbegin]
  intro b a hon hoff mayWait entryState readIsLive taken asked seeking select margin targeted settling onTrack centred
  have hv : viewOnService b = false := decide_eq_false hoff
  have hread (hop : b.ctl.op = none) (hw : b.ctl.withhold = none) := (exec_target_unoccupied (k := k) hbegin hop hw).1
  have hwrite (hop : b.ctl.op = none) (hw : b.ctl.withhold = none) := (exec_target_unoccupied (k := k) hbegin hop hw).2
  have hnoted (o : Order) : noted o b = taken o := noted_off hv
  have live (hl : readIsLive) :
      actTargetRead k (taken (.targetRead k)) = beginLive .liveRead a (taken (.targetRead k)) := by
    refine actTargetRead_live (s := taken (.targetRead k)) hon hv ?_
    rw [mayWithhold_eq]
    exact hl
  refine ⟨fun hfree => ?free, fun hop hw hd hpass hheld hrest hc hm hturning hl => ?party⟩
  case free =>
    obtain ⟨hop, hw, -⟩ := id hfree
    have wants (o : Order) (kind : OpKind) (hk : kind = .liveRead ∨ kind = .liveWrite)
        (hmay : s.svc.mode = .passive ∨ b.drv.condition = .turning) :
        settle (beginLive kind a (taken o)) = settle (controllers (wanting kind a (taken o))) ∧
          Waits (controllers (wanting kind a (taken o))) := by
      obtain ⟨htake, hwaits⟩ := waits_of_driveFree (s := taken o) (a := a) hfree hk
      rw [beginLive_wants (s := taken o) hmay, htake]
      exact ⟨rfl, hwaits⟩
    refine ⟨fun hl hm hlost => ?_, fun hl hmay => ?_, fun hm => ?_⟩
    · have hleft : ({ taken (.targetRead k) with ctl.op := none, ctl.shownFault := true } : State) =
          { taken (.targetRead k) with ctl.shownFault := true } := by rw [← hop]
      rw [hread hop hw, hnoted, live hl, beginLive_lost (s := taken _) hm hlost]
      exact congrArg Host.Outcome.next (settle_eq hleft
        (nothingDue_of_driveFree_lost (s := { taken _ with ctl.shownFault := true }) hfree hlost))
    · obtain ⟨hwants, hwaits⟩ := wants (.targetRead k) .liveRead (.inl rfl) hmay
      rw [hread hop hw, hnoted, live hl, hwants]
      exact ⟨fun hthere hat => congrArg Host.Outcome.next (settles_reseat_targets hwaits hw hthere hat rfl (.inl rfl)).settle,
        fun hthere hat => congrArg Host.Outcome.next (settles_reseat_settles hwaits (reseatTravel_live hw) hthere hat).settle,
        fun haway => congrArg Host.Outcome.next (settles_reseat_seeks hwaits (reseatTravel_live hw) haway).settle⟩
    · obtain ⟨hwants, hwaits⟩ := wants (.targetWrite k) .liveWrite (.inr rfl) (.inl hm)
      rw [hwrite hop hw, hnoted, (actTarget_passive (s := taken (.targetWrite k)) hon hv hm).2]
      refine ⟨fun hthere hat => congrArg Host.Outcome.next (hwants.trans
          (settles_reseat_targets hwaits hw hthere hat rfl (.inr rfl)).settle),
        fun hthere hat => congrArg Host.Outcome.next (hwants.trans
          (settles_reseat_settles hwaits (reseatTravel_live hw) hthere hat).settle),
        fun haway => congrArg Host.Outcome.next (hwants.trans
          (settles_reseat_seeks hwaits (reseatTravel_live hw) haway).settle)⟩
  case party =>
    intro lowered yielded
    have hasks : exec (.targetRead dt k) s =
        .next (settle (takeDrive (wanting .liveRead a (taken (.targetRead k))))) := by
      rw [hread hop hw, hnoted, live hl, beginLive_wants (s := taken _) (.inr hturning)]
    have hyields := takeDrive_device (s := wanting .liveRead a (taken (.targetRead k))) hd hc
    rw [hasks, hyields]
    refine ⟨fun hstep => ?_, fun hstep hthere hat => ?_⟩
    · rw [if_pos hstep]
      exact congrArg Host.Outcome.next (settle_still (nothingDue_of_passing (by simp) hstep hw hrest))
    · have hnostep : ¬ b.drv.step.isSome = true := by rw [show b.drv.step = none from hstep]; simp
      have hwaits : Waits { yielding (wanting .liveRead a (taken (.targetRead k))) with drv.holder := .controller } :=
        ⟨⟨⟨hpass, hrest, noWithhold hw, sweepYields_of_holder (by simp)⟩, hstep, rfl, rfl⟩, rfl, hheld, rfl, rfl⟩
      rw [if_neg hnostep, setHolder_controller (s := yielding _) hrest]
      exact congrArg Host.Outcome.next (settles_reseat_targets hwaits hw hthere hat rfl (.inl rfl)).settle

end Sys2Proof.Machine
end

section
/-!
PROOFS. Withholding begins on a read of a PENDING sector (R36, R75), and its limit passes (R37, R76).
-/

namespace Sys2Proof.Machine

variable {s : State} {a : Addr} {w : Withhold}

/-! ### The queue's changes with the drive out of RECOVERY's hands -/

/-- A head change on a drive that RECOVERY does not hold touches the queue's block and the votes alone (R70). -/
theorem reorder_offDrive (f : List Job → List Job) (h : s.drv.holder ≠ .recovery) :
    ∃ q e, reorder f s = { s with seq := q, eng := e } := by
  unfold reorder
  dsimp only
  split
  · exact ⟨_, _, rfl⟩
  · split
    · exact ⟨_, _, rfl⟩
    · next old _ _ =>
      unfold leaveHead
      dsimp only
      rw [if_neg (fun hg => h (by split at hg <;> exact hg.2))]
      split
      · exact ⟨_, _, rfl⟩
      · exact ⟨_, _, rfl⟩

theorem map_addr_withoutJob (a : Addr) (q : List Job) :
    (withoutJob a q).map Job.addr = (q.map Job.addr).filter fun x => decide (x ≠ a) := by
  rw [withoutJob, List.filter_map]
  rfl

/-- A promoted job is the FOREGROUND head, the others behind it in their order (R60, R75). -/
theorem reorder_promoted {j : Job} (hj : jobOf s a = some j) :
    ((reorder (promoted a) s).seq.queue.head?).map (fun j => (j.addr, j.cls)) = some (a, .foreground) ∧
      (reorder (promoted a) s).seq.queue.map Job.addr =
        a :: (s.seq.queue.map Job.addr).filter fun x => decide (x ≠ a) := by
  obtain ⟨g, hg, hqueue⟩ := reorder_queue (promoted a) s
  have haddr : j.addr = a := addr_of_jobOf hj
  have hpromoted : promoted a s.seq.queue = { j with cls := .foreground } :: withoutJob a s.seq.queue := by
    rw [promoted, show s.seq.queue.find? _ = some j from hj]
  have hkeeps : Job.addr ∘ g = Job.addr := funext fun x => (hg x).1
  rw [hqueue, hpromoted]
  constructor
  · simp [hg, haddr]
  · rw [List.map_map, hkeeps, List.map_cons, map_addr_withoutJob, haddr]

/-- A demoted job is the last of the queue, BACKGROUND (R60, R76). -/
theorem reorder_demoted {j : Job} (hj : jobOf s a = some j) :
    (reorder (demoted a) s).seq.queue.getLast?.map (fun j => (j.addr, j.cls)) = some (a, .background) := by
  obtain ⟨g, hg, hqueue⟩ := reorder_queue (demoted a) s
  have hdemoted : demoted a s.seq.queue = withoutJob a s.seq.queue ++ [{ j with cls := .background }] := by
    rw [demoted, show s.seq.queue.find? _ = some j from hj]
    rfl
  rw [hqueue, hdemoted]
  simp [hg, addr_of_jobOf hj]

/-- Settles O32: the promotion, then the re-seat's POSITION step. -/
theorem pendingReadIsWithheld : Obligations.PendingReadIsWithheld := by
  intro dt k s e j
  obtain ⟨work, idle, hbegin⟩ := begin_changes dt s
  rw [hbegin]
  intro b a hfree hon hoff hm hreal hentry hbody hj hlimit hturning hresting haway
  obtain ⟨hop, hw, hstep, htravel, hcapture, hepisode, hheld, hpass, hholder, hrest⟩ := hfree
  have hv : viewOnService b = false := decide_eq_false hoff
  let taken : State := noted (.targetRead k) b
  have hmay : mayWithhold taken = true := by
    rw [mayWithhold_eq]
    exact Bool.and_eq_true_iff.2 ⟨Bool.and_eq_true_iff.2 ⟨decide_eq_true hlimit, decide_eq_true hturning⟩,
      congrArg not hresting⟩
  have hdecide : decideRead a taken = beginWithhold a taken := by
    have hentry : entryOf taken a = some e := hentry
    simp only [decideRead, hentry, hbody, if_pos hmay]
  have hrecovery : taken.drv.holder ≠ .recovery := fun h => by
    rw [show b.drv.holder = .recovery from h] at hholder
    exact Bool.noConfusion hholder
  obtain ⟨hhead, hqueue⟩ := reorder_promoted (s := taken) hj
  obtain ⟨q, eng, hreorder⟩ := reorder_offDrive (promoted a) hrecovery
  rw [hreorder] at hhead hqueue
  let waiting : State := { taken with
    seq := q
    eng := eng
    ctl.withhold := some ⟨a, b.clock, s.svc.params.withholdLimit, false⟩
    ctl.op := some (newOp .withheld a .awaitingDrive) }
  have hbegins : beginWithhold a taken = controllers waiting := by
    rw [beginWithhold, hreorder]
    exact takeDrive_free (s := waiting) hholder hpass
  have hwaits : Waits (controllers waiting) := by
    refine ⟨⟨⟨hpass, hrest, fun w hwait => ?_, sweepYields_of_holder (by simp)⟩, hstep, hcapture, hepisode⟩, rfl, hheld,
      htravel, rfl⟩
    obtain rfl := Option.some.inj hwait
    exact ⟨rfl, hresting⟩
  refine ⟨settle (controllers waiting), ?_, ?_⟩
  · rw [(exec_target_unoccupied (k := k) hbegin hop hw).1, (actTarget_active (s := taken) hon hv hm hreal).1]
    exact congrArg (fun t => Host.Outcome.next (settle t)) (hdecide.trans hbegins)
  · rw [(settles_reseat_seeks hwaits (reseatTravel_withhold rfl) haway).settle]
    exact ⟨rfl, rfl, hhead, hqueue, rfl, rfl, rfl, rfl, rfl, rfl, rfl, rfl, rfl, rfl, rfl⟩

/-! ### A withholding ended with the drive's hands free -/

/-- Nothing is in hand on the drive, whoever holds it, and no rest is due. -/
abbrev HandsFree (s : State) : Prop :=
  s.drv.step = none ∧ s.drv.travel = none ∧ s.drv.capture = none ∧ s.drv.episode = none ∧ s.drv.passOn = .stays ∧
    restDue s = false

theorem giveUp_handsFree (h : HandsFree s) : ∃ x, giveUp s = { s with drv.holder := x } := by
  obtain ⟨hstep, htravel, hcapture, hepisode, -, hrest⟩ := h
  cases hd : s.drv.holder.isDevice with
  | false => exact ⟨s.drv.holder, by simp [giveUp, hd]⟩
  | true =>
    refine ⟨.nobody, ?_⟩
    rw [giveUp_eq hd hstep hrest (by simp [hcapture])]
    simp [hcapture, htravel, hepisode]

theorem leaveHead_handsFree (old : Job) (h : HandsFree s) :
    ∃ q e x, leaveHead old s = { s with seq := q, eng := e, drv.holder := x } := by
  have marked : ∀ t : State, ∃ e, (if old.state = .voting then markDiscard old.addr t else t) = { t with eng := e } := by
    intro t
    split
    · exact ⟨_, rfl⟩
    · exact ⟨_, rfl⟩
  obtain ⟨e, hmarked⟩ :=
    marked (emptyHeadWork (updateJob old.addr (fun j => { j with state := .waiting, readsDone := 0 }) s))
  unfold leaveHead
  dsimp only
  rw [hmarked]
  split
  · obtain ⟨x, hgives⟩ := giveUp_handsFree (s := { s with seq := _, eng := e }) h
    exact ⟨_, _, x, hgives⟩
  · exact ⟨_, _, s.drv.holder, rfl⟩

theorem reorder_handsFree (f : List Job → List Job) (h : HandsFree s) :
    ∃ q e x, reorder f s = { s with seq := q, eng := e, drv.holder := x } := by
  unfold reorder
  dsimp only
  split
  · exact ⟨_, _, s.drv.holder, rfl⟩
  · split
    · exact ⟨_, _, s.drv.holder, rfl⟩
    · exact leaveHead_handsFree (s := { s with seq.queue := f s.seq.queue }) _ h

/-- The places of a queue's jobs: sectors and classes in order (R60). -/
abbrev places (q : List Job) : List (Addr × JobClass) := q.map fun j => (j.addr, j.cls)

/-- An ACTIVE job's becoming WAITING leaves every place (R69, R73). -/
theorem places_standDown (q : List Job) :
    places (q.map fun j => if j.state = .active then { j with state := .waiting } else j) = places q := by
  rw [places, List.map_map]
  refine List.map_congr_left fun j _ => ?_
  by_cases hactive : j.state = .active <;> simp [hactive]

theorem demoteJob_handsFree {j : Job} (hj : jobOf s a = some j) (h : HandsFree s) :
    ∃ q e x, demoteJob a s = { s with seq := q, eng := e, drv.holder := x } ∧
      (places q.queue).getLast? = some (a, .background) := by
  obtain ⟨q, e, x, hreorder⟩ := reorder_handsFree (demoted a) h
  have hlast := reorder_demoted hj
  rw [hreorder, ← List.getLast?_map] at hlast
  unfold demoteJob
  rw [hreorder]
  dsimp only
  split
  · split
    · obtain ⟨y, hgives⟩ := giveUp_handsFree
        (s := standDown { s with seq := q, eng := e, drv.holder := x }) h
      exact ⟨_, _, y, hgives, (congrArg List.getLast? (places_standDown _)).trans hlast⟩
    · exact ⟨q, e, x, rfl, hlast⟩
  · exact ⟨q, e, x, rfl, hlast⟩

/-- The controller takes a drive that nothing is in hand on: the holder changes, and an ACTIVE job waits (R69, R132). -/
theorem takeDrive_handsFree (h : HandsFree s) (hsweep : s.sweep.state ≠ .sweeping) :
    ∃ q, takeDrive s = { controllers s with seq.queue := q } ∧ places q = places s.seq.queue := by
  obtain ⟨hstep, htravel, hcapture, hepisode, hpass, hrest⟩ := h
  cases hd : s.drv.holder.isDevice with
  | false => exact ⟨s.seq.queue, takeDrive_free hd hpass, rfl⟩
  | true =>
    refine ⟨_, ?_, places_standDown s.seq.queue⟩
    rw [takeDrive_device hd (by simp [hcapture]), if_neg (by simp [hstep]), setHolder_controller (s := yielding s) hrest]
    simp [hcapture, htravel, hepisode, hsweep]

/-- A re-seat for a live read keeps the read and everything but the drive port, wherever the drive stands (R122). -/
theorem settle_reseat_keeps {o : Op} (h : Waits s) (hw : s.ctl.withhold = none) (hop : s.ctl.op = some o)
    (hk : o.kind = .liveRead) :
    ∃ q d out, settle s = { s with ctl.op := q, drv := d, out := out } ∧
      q.map (fun o => (o.kind, o.addr)) = some (.liveRead, o.addr) ∧ d.holder = .controller := by
  obtain ⟨-, hholder, -⟩ := id h
  have hkept : s.ctl.op.map (fun o => (o.kind, o.addr)) = some (.liveRead, o.addr) := by simp [hop, hk]
  by_cases hthere : s.drv.record.cyl = some s.ctl.cyl
  · by_cases hoffset : s.drv.record.offset = some s.ctl.offset
    · exact ⟨_, _, _, (settles_reseat_targets h hw hthere hoffset hop (.inl hk)).settle, by simp [hk], hholder⟩
    · exact ⟨_, _, _, (settles_reseat_settles h rfl hthere hoffset).settle, hkept, hholder⟩
  · exact ⟨_, _, _, (settles_reseat_seeks h rfl hthere).settle, hkept, hholder⟩

/-- A live pass begun on a drive that nothing is in hand on: the controller waits for it (R32, R37). -/
theorem beginLive_handsFree (h : HandsFree s) (hw : s.ctl.withhold = none) (hheld : s.drv.heldOrders = [])
    (hsweep : s.sweep.state ≠ .sweeping) (hturning : s.drv.condition = .turning) :
    ∃ q, beginLive .liveRead a s = { controllers (wanting .liveRead a s) with seq.queue := q } ∧
      places q = places s.seq.queue ∧ Waits { controllers (wanting .liveRead a s) with seq.queue := q } := by
  obtain ⟨q, htake, hplaces⟩ := takeDrive_handsFree (s := wanting .liveRead a s) h hsweep
  obtain ⟨hstep, htravel, hcapture, hepisode, hpass, hrest⟩ := h
  exact ⟨q, (beginLive_wants (.inr hturning)).trans htake, hplaces,
    ⟨⟨hpass, hrest, noWithhold hw, sweepYields_of_holder (by simp)⟩, hstep, hcapture, hepisode⟩, rfl, hheld, htravel, rfl⟩

theorem dropReseat_none (h : s.drv.travel = none) : dropReseat s = s := by
  simp [dropReseat, h]

/-- A withholding ended with its job demoted and a live pass (R37, R76), on a drive that nothing is in hand on. -/
theorem endWithholdDemoting_handsFree {j : Job} {k : EndKind} (hw : s.ctl.withhold = some w) (hj : jobOf s w.addr = some j)
    (h : HandsFree s) (hheld : s.drv.heldOrders = []) (hsweep : s.sweep.state ≠ .sweeping)
    (hturning : s.drv.condition = .turning) :
    ∃ t, settle (endWithholdDemoting k s) = t ∧
      t.ctl.withhold = none ∧ t.ctl.report = some ⟨w.addr, k, min ((s.clock - w.begun) / 1000) 4095⟩ ∧
      t.ctl.op.map (fun o => (o.kind, o.addr)) = some (.liveRead, w.addr) ∧ t.drv.holder = .controller ∧
      (places t.seq.queue).getLast? = some (w.addr, .background) ∧
      t.map = s.map ∧ t.log = s.log ∧ t.heads = s.heads ∧ t.sweep = s.sweep ∧ t.svc = s.svc ∧ t.tables = s.tables ∧
      t.clock = s.clock := by
  obtain ⟨q, e, x, hdemote, hlast⟩ := demoteJob_handsFree hj h
  let demoted : State := { s with seq := q, eng := e, drv.holder := x }
  let ended : State := reported k w demoted
  obtain ⟨-, htravel, -⟩ := id h
  have hdrop : dropReseat (closeWithhold k demoted) = ended :=
    (congrArg dropReseat (closeWithhold_eq (s := demoted) hw k)).trans (dropReseat_none (s := ended) htravel)
  obtain ⟨q', hlive, hplaces, hwaits⟩ :=
    beginLive_handsFree (a := w.addr) (s := ended) h rfl hheld hsweep hturning
  obtain ⟨op, d, out, hsettle, hop, hholder⟩ := settle_reseat_keeps hwaits rfl rfl rfl
  refine ⟨_, rfl, ?_⟩
  rw [endWithholdDemoting, hw]
  dsimp only
  rw [hdemote, withholdLive, hdrop, hlive, hsettle]
  exact ⟨rfl, rfl, hop, hholder, (congrArg List.getLast? hplaces).trans hlast, rfl, rfl, rfl, rfl, rfl, rfl, rfl⟩

/-! ### The withhold limit -/

/-- A passed limit that is only noted sets nothing off while the capture runs (R37). -/
theorem nothingDue_noted (hdue : NothingDue s) (hw : s.ctl.withhold = some w) (hc : s.drv.capture.isSome = true) :
    NothingDue { s with ctl.withhold := some { w with limitPassed := true } } := by
  have hcapture : s.drv.capture.isNone = false := by rw [← Option.not_isSome, hc]; rfl
  refine nothingDue_of_eq hdue ?_
  simp only [nextAct, restMeetsWithhold, limitEnds, hw, hc, hcapture, Option.isSome_some, Bool.false_and,
    Bool.or_true, Bool.true_or]
  rfl

theorem withholdLimit_passes (hw : s.ctl.withhold = some w) (hlimit : w.limitPassed = false) :
    exec .withholdLimit s = .next (settle (limitPasses (beginAt (w.begun + w.limit * 1000) s))) := by
  show execWithholdLimit s = _
  simp [execWithholdLimit, hw, hlimit, Config.ms]

/-- Settles O59: the limit noted during a capture, else the demotion and the live pass. -/
theorem withholdLimitPasses : Obligations.WithholdLimitPasses := by
  intro w j s hw hlimit hclock hrange
  obtain ⟨work, idle, hbegin⟩ := beginAt_changes (w.begun + w.limit * 1000) s
  rw [Nat.max_eq_right hclock] at hbegin
  rw [withholdLimit_passes hw hlimit, hbegin]
  intro now
  refine ⟨fun hdue hc => ?noted, fun hm hturning hresting hrest hc hstep htravel hepisode hheld hpass hsweep hj _ => ?ends⟩
  case noted =>
    have hnoted : limitPasses now = { now with ctl.withhold := some { w with limitPassed := true } } := by
      have hnow : now.ctl.withhold = some w := hw
      rw [limitPasses, if_pos hc, hnow]
      rfl
    exact congrArg Host.Outcome.next (settle_eq hnoted (nothingDue_noted hdue hw hc))
  case ends =>
    have hends : limitPasses now = endWithholdDemoting .limit now := if_neg (by simp [show now.drv.capture = none from hc])
    obtain ⟨t, hsettle, hnone, hreport, hop, hholder, hlast, hsame⟩ := endWithholdDemoting_handsFree (k := .limit)
      (s := now) hw hj ⟨hstep, htravel, hc, hepisode, hpass, hrest⟩ hheld hsweep hturning
    have hduration : min ((now.clock - w.begun) / 1000) 4095 = w.limit := by
      show min ((w.begun + w.limit * 1000 - w.begun) / 1000) 4095 = w.limit
      omega
    rw [hduration] at hreport
    rw [List.getLast?_map] at hlast
    exact ⟨t, by rw [hends, hsettle], hnone, hreport, hop, hholder, hlast, hsame⟩

end Sys2Proof.Machine
end

section
/-!
PROOFS. The four mode commands (R22, R185 to R188): what is due after a command is answered, after the mode has changed,
and after PASSIVATE has cancelled the device's work.
-/

namespace Sys2Proof.Machine

variable {s : State}

/-! ### When nothing is due -/

theorem ite_some_eq_none {c : Prop} [Decidable c] {x : Act} {e : Option Act} :
    (if c then some x else e) = none ↔ ¬c ∧ e = none := by
  by_cases h : c <;> simp [h]

theorem nothingDue_iff (s : State) : NothingDue s ↔
    (s.drv.passOn = .stays ∨ s.drv.step.isSome = true) ∧ restMeetsWithhold s = false ∧ limitEnds s = false ∧
      (restDue s && restPoint s) = false ∧ sweepYields s = false ∧
      ((s.drv.step.isSome || s.drv.capture.isSome || s.drv.episode.isSome) = true ∨ holderAct s = none) := by
  have hpass : ¬(s.drv.passOn ≠ .stays ∧ s.drv.step.isNone = true) ↔
      s.drv.passOn = .stays ∨ s.drv.step.isSome = true := by
    rw [← Option.not_isSome, Bool.not_eq_true', not_and_or, Classical.not_not, Bool.not_eq_false]
  have hflight : (if (s.drv.step.isSome || s.drv.capture.isSome || s.drv.episode.isSome) = true then none
      else holderAct s) = none ↔
      (s.drv.step.isSome || s.drv.capture.isSome || s.drv.episode.isSome) = true ∨ holderAct s = none := by
    split
    · simp [*]
    · simp [*]
  unfold NothingDue nextAct
  simp only [ite_some_eq_none, hpass, hflight, Bool.not_eq_true]

/-! ### The command's answer -/

theorem awaitsDrive_of_accepts (h : acceptsFrame s = true) : awaitsDrive s = false := by
  cases hop : s.ctl.op with
  | none => exact awaitsDrive_none hop
  | some o =>
    have hkind : o.kind = .serviceWrite := by
      simp only [acceptsFrame, hop, Bool.and_eq_true, decide_eq_true_eq] at h
      exact h.1.1
    exact awaitsDrive_of_kind hop (by simp [hkind])

/-- The answer of a command changes nothing that an act hangs on (R179). -/
theorem nextAct_answered (tag code : Nat) (payload : List Nat) (s : State) :
    nextAct (answered tag code payload s) = nextAct s := by
  have ha : awaitsDrive (answered tag code payload s) = awaitsDrive s := by
    cases hop : s.ctl.op <;> simp [awaitsDrive, hop]
  simp only [nextAct, restMeetsWithhold, limitEnds, restDue, workDuration, restPoint, inRetry, sweepYields, headMayRun,
    deviceMayWork, isPassive, holderAct, sweepMayRun, ha]
  rfl

theorem nothingDue_answered {tag code : Nat} {payload : List Nat} (h : NothingDue s) :
    NothingDue (answered tag code payload s) := (nextAct_answered tag code payload s).trans h

/-! ### The lines on the service cylinder -/

theorem captiveLines_onService (h : viewOnService s = true) : captiveLines s = s := by simp [captiveLines, h]

theorem captiveOnReply_onService (h : viewOnService s = true) : captiveOnReply s =
    if s.svc.mode = .active then ({ s with svc.mode := .captive }, doneWith [2]) else (s, refuse .state) := by
  have hlines : captiveLines { s with svc.mode := .captive } = { s with svc.mode := .captive } :=
    captiveLines_onService h
  rw [captiveOnReply, hlines]
  rfl

/-- The lines of CAPTIVE OFF and PASSIVATE stay on the service cylinder (R22). -/
theorem releaseLines_onService (h : viewOnService s = true) : releaseLines s = s := by simp [releaseLines, h]

theorem captiveOffReply_onService (h : viewOnService s = true) : captiveOffReply s =
    if s.svc.mode = .captive then ({ s with svc.mode := .active }, doneWith [1]) else (s, refuse .state) := by
  have hlines : releaseLines { s with svc.mode := .active } = { s with svc.mode := .active } := releaseLines_onService h
  rw [captiveOffReply, hlines]
  rfl

theorem activateReply_onService (h : viewOnService s = true) : activateReply s =
    if s.svc.mode = .passive ∧ s.svc.geometry ≠ none then
      ({ s with svc.mode := .active, ctl.shownOnCylinder := true }, doneWith [1])
    else (s, refuse .state) := by
  have hlines : activateLines { s with svc.mode := .active } =
      { s with svc.mode := .active, ctl.shownOnCylinder := true } := if_pos h
  have hmay : (isPassive s && s.svc.geometry.isSome) = true ↔ s.svc.mode = .passive ∧ s.svc.geometry ≠ none := by
    simp [isPassive, Option.isSome_iff_ne_none]
  rw [activateReply, hlines, if_congr hmay rfl rfl]
  rfl

/-! ### A drive with no work to be granted for -/

theorem mayRun_of_deviceIdle (h : DeviceIdle s) : headMayRun s = false ∧ sweepMayRun s = false := by
  rcases h with hm | ⟨hq, hsweep⟩
  · simp [headMayRun, sweepMayRun, deviceMayWork, hm]
  · exact ⟨headMayRun_of_empty hq, sweepMayRun_of_idle hsweep⟩

theorem sweepYields_of_headMayRun (h : headMayRun s = false) : sweepYields s = false := by simp [sweepYields, h]

/-- ACTIVATE finds nothing to grant: CONTROLLER holds the drive, or the queue is empty and the sweep IDLE (R136, R188). -/
theorem nothingDue_activated (hdue : NothingDue s)
    (h : s.drv.holder ≠ .controller → s.seq.queue = [] ∧ s.sweep.state = .idle) :
    NothingDue { s with svc.mode := .active, ctl.shownOnCylinder := true } := by
  by_cases hh : s.drv.holder = .controller
  · refine nothingDue_of_eq hdue ?_
    simp only [nextAct, restMeetsWithhold, limitEnds, restDue, workDuration, restPoint, inRetry, sweepYields, holderAct, hh]
    rfl
  · obtain ⟨hq, hsweep⟩ := h hh
    obtain ⟨hhead, hsweepMay⟩ := mayRun_of_deviceIdle (s := s) (.inr ⟨hq, hsweep⟩)
    obtain ⟨hhead', hsweepMay'⟩ := mayRun_of_deviceIdle
      (s := { s with svc.mode := .active, ctl.shownOnCylinder := true }) (.inr ⟨hq, hsweep⟩)
    refine nothingDue_of_eq hdue ?_
    simp only [nextAct, restMeetsWithhold, limitEnds, restDue, workDuration, restPoint, inRetry, sweepYields, holderAct,
      hhead, hsweepMay, hhead', hsweepMay']
    rfl

/-! ### PASSIVATE -/

theorem codeDuration_pos {code : Nat} (h : code ≠ 0) : 0 < codeDuration code := by
  unfold codeDuration Config.second
  rw [if_neg h]
  repeat' split
  all_goals omega

/-- With the work counter at 0 no rest is due (R141, R142). -/
theorem restDue_of_noWork (h : s.drv.work = 0) : restDue s = false := by
  by_cases hcode : s.svc.params.workCode = 0
  · simp [restDue, limiterOn, hcode]
  · have := codeDuration_pos hcode
    simp [restDue, workDuration, h]
    omega

/-- What PASSIVATE leaves of the device's own work, the drive apart (R55, R81, R118, R145, R159). -/
abbrev passivated (s : State) : State :=
  { s with
    svc.mode := .passive
    map.entries := s.map.entries.filter fun e => e.body.slot?.isSome
    seq := ⟨[], [], none, none⟩
    eng.inFlight := s.eng.inFlight.map fun v => { v with discard := true }
    eng.waiting := s.eng.waiting.map fun v => { v with discard := true }
    sweep.state := .idle
    sweep.cause := none
    sweep.refusalMet := false
    sweep.pass := .reaching
    sweep.marked := []
    drv.work := 0
    drv.idle := 0
    drv.resting := false }

theorem holderAct_controller (h : s.drv.holder = .controller) : holderAct s =
    if s.drv.heldOrders ≠ [] then some .relay
    else if s.drv.travel.isSome then some .move
    else if awaitsDrive s then some .reseat
    else none := by
  simp only [holderAct, h]

/-- After PASSIVATE the controller's holding is as it was, and there is nothing to grant. -/
theorem nothingDue_passivated (hdue : NothingDue s) (hd : s.drv.holder.isDevice = false) :
    NothingDue (passivated s) := by
  obtain ⟨hpass, -, hlimit, -, -, hact⟩ := (nothingDue_iff s).1 hdue
  have hrest : restDue (passivated s) = false := restDue_of_noWork rfl
  obtain ⟨hhead, hsweep⟩ := mayRun_of_deviceIdle (s := passivated s) (.inr ⟨rfl, rfl⟩)
  refine (nothingDue_iff _).2 ⟨hpass, rfl, hlimit, by rw [hrest, Bool.false_and], sweepYields_of_headMayRun hhead,
    hact.imp_right fun hnone => ?_⟩
  cases hh : s.drv.holder with
  | nobody => simp [holderAct, hh, hhead, hsweep]
  | controller => exact (holderAct_controller (s := passivated s) hh).trans ((holderAct_controller hh).symm.trans hnone)
  | recovery => simp [hh, Holder.isDevice] at hd
  | sweep => simp [hh, Holder.isDevice] at hd

/-- A party's step in flight is let end before it gives up the drive; a taking that waits for it stands (R134; log 59). -/
theorem giveUp_deviceSteps (hd : s.drv.holder.isDevice = true)
    (hc : (s.drv.capture.all fun c => decide (c.party ≠ .live)) = true) (hstep : s.drv.step.isSome = true) :
    giveUp s = { s with
      drv.travel := none
      drv.episode := none
      drv.capture := none
      drv.readGate := s.drv.readGate && s.drv.capture.isNone
      drv.passOn := if s.drv.passOn = .stays then .toNobody else s.drv.passOn
      out := s.out ++ if s.drv.readGate && s.drv.capture.isSome then [.readGate false] else [] } := by
  rw [giveUp, if_pos hd, dropWork_device hc, if_pos hstep]
  by_cases hpass : s.drv.passOn = .stays <;> simp [hpass]

/-- The state a command frame finds once its field has ended (R179). -/
abbrev fieldEnds (s : State) : State := { s with ctl.op := s.ctl.op.map fun o => { o with fieldEnded := true } }

/-- PASSIVATE cancels, clears the limiter and gives up the drive; then the mode changes (R188). -/
theorem passivateReply_onService (hm : s.svc.mode ≠ .passive) {t : State}
    (ht : giveUp { passivated s with svc.mode := s.svc.mode } = t) (hview : viewOnService t = true) :
    passivateReply s = ({ t with svc.mode := .passive }, doneWith [0, s.seq.queue.length]) := by
  have hlines : releaseLines { t with svc.mode := .passive } = { t with svc.mode := .passive } :=
    releaseLines_onService hview
  rw [← ht] at hlines ⊢
  refine (if_neg (by simp [isPassive, hm])).trans ?_
  exact congrArg (fun x => (x, doneWith [0, s.seq.queue.length])) hlines

/-- Settles O51: each reply, and nothing due behind it. -/
theorem modesChange : Obligations.ModesChange := by
  intro dt tag s haccepts
  obtain ⟨work, idle, hbegin⟩ := begin_changes dt s
  rw [hbegin]
  intro b hcyl
  have hv : viewOnService (fieldEnds b) = true := decide_eq_true hcyl
  have onFrame_eq (act : State → State) : onFrame act (begin dt s) = act (fieldEnds b) := by
    rw [hbegin]
    exact if_pos haccepts
  refine ⟨fun hdue hidle => ?activate, ?captiveOn, ?captiveOff, fun hm hdue => ?already, fun hm => ?passivate⟩
  case activate =>
    show Host.Outcome.next (onFrame _ (begin dt s)) = _
    rw [onFrame_eq, activateReply_onService hv]
    by_cases hmay : s.svc.mode = .passive ∧ s.svc.geometry ≠ none
    · rw [if_pos hmay, if_pos hmay]
      exact congrArg Host.Outcome.next (settle_still (nothingDue_answered (nothingDue_activated hdue (hidle hmay.1))))
    · rw [if_neg hmay, if_neg hmay]
      exact congrArg Host.Outcome.next (settle_still (nothingDue_answered hdue))
  case captiveOn =>
    show Host.Outcome.next (onFrame _ (begin dt s)) = _
    rw [onFrame_eq, captiveOnReply_onService hv]
    by_cases hm : s.svc.mode = .active
    · rw [if_pos hm, if_pos hm]
      rfl
    · rw [if_neg hm, if_neg hm]
      rfl
  case captiveOff =>
    show Host.Outcome.next (onFrame _ (begin dt s)) = _
    rw [onFrame_eq, captiveOffReply_onService hv]
    by_cases hm : s.svc.mode = .captive
    · rw [if_pos hm, if_pos hm]
      rfl
    · rw [if_neg hm, if_neg hm]
      rfl
  case already =>
    show Host.Outcome.next (onFrame _ (begin dt s)) = _
    have hrefused : passivateReply (fieldEnds b) = (fieldEnds b, refuse .state) := if_pos (decide_eq_true hm)
    rw [onFrame_eq, hrefused]
    exact congrArg Host.Outcome.next (settle_still (nothingDue_answered hdue))
  case passivate =>
    intro kept done
    have gives {t : State} (ht : giveUp { passivated (fieldEnds b) with svc.mode := s.svc.mode } = t)
        (hview : viewOnService t = true) : exec (.passivate dt tag) s = .next (settle (answer tag
          ({ t with svc.mode := .passive }, doneWith [0, s.seq.queue.length]))) := by
      show Host.Outcome.next (onFrame _ (begin dt s)) = _
      rw [onFrame_eq, passivateReply_onService (s := fieldEnds b) hm ht hview]
    have hrest : restDue { passivated (fieldEnds b) with svc.mode := s.svc.mode } = false := restDue_of_noWork rfl
    refine ⟨fun hd hdue => ?_, fun hd hw hc => ?_⟩
    · refine (gives (t := { passivated (fieldEnds b) with svc.mode := s.svc.mode }) (if_neg ?_) hv).trans ?_
      · simp [hd, b]
      · exact congrArg Host.Outcome.next (settle_still
          (nothingDue_answered (s := kept) (nothingDue_passivated (s := b) hdue hd)))
    · intro dropped
      refine ⟨fun hstep hpass => ?_, fun hstep => ?_⟩
      · refine (gives (giveUp_eq hd hstep hrest hc) hv).trans ?_
        obtain ⟨hhead, hsweep⟩ := mayRun_of_deviceIdle (s := { kept with drv.holder := .nobody }) (.inr ⟨rfl, rfl⟩)
        exact congrArg Host.Outcome.next (settle_still (nothingDue_answered
          (nothingDue_of_nobody rfl hpass hw (restDue_of_noWork rfl) hhead hsweep)))
      · have hsome : b.drv.step.isSome = true := Option.isSome_iff_ne_none.2 hstep
        have hpasses : (if s.drv.passOn = .stays then PassOn.toNobody else s.drv.passOn) ≠ .stays := by
          split
          · simp
          · assumption
        refine (gives (giveUp_deviceSteps hd hc hsome) hv).trans ?_
        exact congrArg Host.Outcome.next (settle_still (nothingDue_answered (nothingDue_of_passing
          (s := { dropped with drv.passOn := if s.drv.passOn = .stays then .toNobody else s.drv.passOn })
          hpasses hsome hw (restDue_of_noWork rfl))))

end Sys2Proof.Machine
end

section
/-!
PROOFS. The drive's INDEX and levels (R24 to R26, R124, R125): READY stands through everything the device does, an episode
begins and ends, a job reads on, the sweep goes to its track, and a failed step is retried (R138).
-/

namespace Sys2Proof.Machine

variable {s : State} {t : Travel}

/-! ### READY -/

/-- A LOST judgement and all it sets off leave the drive's READY (R126). -/
theorem settle_judgeLost_ready (s : State) : (settle (judgeLost s)).drv.lines.ready = s.drv.lines.ready := by
  have hs : Writeless False False False (some s.drv.lines.ready) s :=
    ⟨id, fun hu => hu.elim, fun hc => hc.elim, fun hb => hb.elim, fun hb => hb.elim, fun _ h => Option.some.inj h⟩
  exact (settle_harmless (judgeLost_harmless hs)).ready _ rfl

theorem shownReady_eq {u : State} (hm : u.svc.mode = s.svc.mode) (hready : u.drv.lines.ready = false) :
    shownReady u = decide (s.svc.mode ≠ .passive) := by
  by_cases hp : s.svc.mode = .passive <;> simp [shownReady, isPassive, hm, hready, hp]

section
variable {dt : Nat} {b : State} (hb : begin dt s = b)
include hb

/-- READY's fall ends the counts of INDEXes (R124). -/
abbrev readyFallen (b : State) : State :=
  { b with drv.lines.ready := false, drv.indexChain := false, drv.indexCount := 0 }

theorem readyFalls_lost (h : b.drv.condition = .lost) : exec (.driveReadyFalls dt) s = .next (readyFallen b) := by
  show execDriveReadyFalls dt s = _
  simp only [execDriveReadyFalls, hb, h, readyFallen]

theorem readyFalls_turning (h : b.drv.condition = .turning) :
    exec (.driveReadyFalls dt) s = .next (settle (judgeLost (readyFallen b))) := by
  show execDriveReadyFalls dt s = _
  simp only [execDriveReadyFalls, hb, h, readyFallen]

theorem faultFalls_none (h : b.drv.episode = none) :
    exec (.driveFaultFalls dt) s = .next { b with drv.lines.fault := false } := by
  show execDriveFaultFalls dt s = _
  simp only [execDriveFaultFalls, hb, h]

theorem faultFalls_some {x : Episode} (h : b.drv.episode = some x) :
    exec (.driveFaultFalls dt) s = .next (settle (resumeAfterFault x { b with drv.lines.fault := false })) := by
  show execDriveFaultFalls dt s = _
  simp only [execDriveFaultFalls, hb, h]

end

/-! ### INDEX -/

/-- With no capture in flight and no track read awaiting it, an INDEX is measured and judged alone (R26, R124). -/
theorem driveIndex_quiet {dt : Nat} {b : State} (hb : begin dt s = b) (hc : b.drv.capture = none)
    (hpass : b.sweep.pass ≠ .awaitingIndex) : exec (.driveIndex dt) s = .next (settle (judgeIndex (measureIndex b))) := by
  have hcapture : ∀ u : State, u.drv.capture = none → indexAtCapture u = u := fun u hu => by simp [indexAtCapture, hu]
  have hsweep : ∀ u : State, u.sweep.pass ≠ .awaitingIndex → indexAtSweep u = u := fun u hu => by simp [indexAtSweep, hu]
  have hkept : (judgeIndex (measureIndex b)).drv.capture = none ∧
      (judgeIndex (measureIndex b)).sweep.pass ≠ .awaitingIndex := by
    unfold judgeIndex
    split
    · exact ⟨hc, hpass⟩
    · split
      · split <;> exact ⟨hc, hpass⟩
      · exact ⟨hc, hpass⟩
  show Host.Outcome.next (settle (indexAtSweep (indexAtCapture (judgeIndex (measureIndex (begin dt s)))))) = _
  rw [hb, hcapture _ hkept.1, hsweep _ hkept.2]

theorem judgeIndex_turning (h : s.drv.condition = .turning) : judgeIndex s = relayIndex s := by
  simp only [judgeIndex, h]

/-- While LOST only an INDEX seen with READY true and FAULT low counts, and the second makes the drive TURNING (R124). -/
theorem judgeIndex_lost (h : s.drv.condition = .lost) : judgeIndex s =
    if (s.drv.lines.ready && !s.drv.lines.fault) = true then
      if s.drv.indexCount = 0 then { s with drv.indexCount := 1 }
      else relayIndex { s with drv.condition := .turning, drv.indexCount := 0, drv.genNext := none }
    else s := by
  simp only [judgeIndex, h, Bool.and_eq_true, Bool.not_eq_true']

/-- A drive that becomes TURNING finds an idle device with nothing to grant. -/
theorem nothingDue_turning (hdue : NothingDue s) (h : DeviceIdle s) :
    NothingDue { s with drv.condition := .turning, drv.indexCount := 0, drv.genNext := none } := by
  obtain ⟨hhead, hsweep⟩ := mayRun_of_deviceIdle h
  obtain ⟨hhead', hsweep'⟩ := mayRun_of_deviceIdle
    (s := { s with drv.condition := .turning, drv.indexCount := 0, drv.genNext := none }) h
  refine nothingDue_of_eq hdue ?_
  simp only [nextAct, restMeetsWithhold, limitEnds, restDue, workDuration, restPoint, inRetry, sweepYields, holderAct,
    hhead, hsweep, hhead', hsweep']
  rfl

/-! ### The one CLEAR of a LOST drive, and an episode's -/

/-- The one CLEAR while LOST (R124): used up in PASSIVE mode and in rest, issued otherwise. -/
theorem lostClear_eq (s : State) : lostClear s =
    if s.drv.condition = .lost ∧ s.drv.lines.ready = true ∧ s.drv.lines.fault = true ∧ s.drv.clearArmed = true then
      if decide (s.svc.mode ≠ .passive) && !s.drv.resting then
        { s with drv.clearArmed := false, drv.lines.positionError := false, out := s.out ++ [.order .clear] }
      else { s with drv.clearArmed := false }
    else s := by
  unfold lostClear
  split
  · by_cases hm : s.svc.mode = .passive <;> cases hr : s.drv.resting <;> simp [isPassive, hm, hr, issueOrder, emit]
  · rfl

theorem lostClear_turning (h : s.drv.condition = .turning) : lostClear s = s := by simp [lostClear, h]

/-- An episode begins: the party's capture is abandoned, a step in flight ends as failed, one CLEAR is issued (R125). -/
theorem startEpisode_device (hc : (s.drv.capture.all fun c => decide (c.party ≠ .live)) = true) : startEpisode s =
    { s with
      drv.lines.positionError := false
      drv.capture := none
      drv.readGate := s.drv.readGate && s.drv.capture.isNone
      drv.step := none
      drv.episode := some ⟨s.clock, s.drv.step.bind Step.move⟩
      out := s.out ++ (if s.drv.readGate && s.drv.capture.isSome then [.readGate false] else []) ++ [.order .clear] } := by
  have habandon : abandonCapture s = { s with
      drv.capture := none
      drv.readGate := s.drv.readGate && s.drv.capture.isNone
      out := s.out ++ if s.drv.readGate && s.drv.capture.isSome then [.readGate false] else [] } := by
    cases hcapture : s.drv.capture with
    | none =>
      simp [abandonCapture, hcapture]
      rw [← hcapture]
    | some c => simp [abandonCapture, hcapture, show c.party ≠ .live by simpa [hcapture] using hc, lowerReadGate_eq]
  rw [startEpisode, habandon]
  rfl

/-! ### A job reads on -/

/-- The ACTIVE head job with reads and budget left in its working rung: its next target is issued (R96, R97). -/
structure ReadsOn (j : Job) (g : Rung) (s : State) : Prop where
  head : headJob s = some j
  active : j.state = .active
  rung : s.seq.workingRung = some g
  readsLeft : j.readsDone < g.reads
  budgetLeft : j.readsSpent < effectiveBudget (isWorn s j.addr.head) (ladderOf s j.ladder).budget

theorem acts_readsOn {j : Job} {g : Rung} (h : ReadsOn j g s) (hquiet : Quiescent s) (hh : s.drv.holder = .recovery)
    (ht : s.drv.travel = none) : Acts 1 s
      { s with
        drv.capture := some ⟨.recovery, j.addr, false, 0⟩
        out := s.out ++ [.order (.targetRead j.addr.sec)] } := by
  refine .one (x := .job) ?_ ?_
  · rw [nextAct_of_quiescent hquiet]
    simp [holderAct, hh, ht, h.head, h.active, h.rung]
  · show runJob s = _
    simp only [runJob, h.head, h.rung, if_neg (Nat.not_le.2 h.readsLeft), readSector,
      if_neg (Nat.not_le.2 h.budgetLeft)]
    rfl

/-- With a capture in flight nothing is due before it ends. -/
theorem nothingDue_of_capturing (h : Unhindered s) (hc : s.drv.capture.isSome = true) : NothingDue s :=
  nothingDue_of_inFlight h (by simp [hc])

theorem settles_readsOn {j : Job} {g : Rung} (h : ReadsOn j g s) (hquiet : Quiescent s) (hh : s.drv.holder = .recovery)
    (ht : s.drv.travel = none) : Settles 1 s
      { s with
        drv.capture := some ⟨.recovery, j.addr, false, 0⟩
        out := s.out ++ [.order (.targetRead j.addr.sec)] } := by
  obtain ⟨hfree, -⟩ := id hquiet
  exact .of_acts (acts_readsOn h hquiet hh ht) (nothingDue_of_capturing hfree rfl)

theorem isWorn_eq (s : State) (n : Nat) : isWorn s n = s.heads[n]?.any HeadRecord.worn := by
  cases h : s.heads[n]? <;> simp [isWorn, h]

/-! ### The sweep's positioning -/

/-- A sweep's positioning that is complete leaves the track read to wait for INDEX (R149, R150). -/
theorem acts_sweepArrives (h : MayMove s) (ht : s.drv.travel = some t) (hmoves : t.moves = []) (hretry : t.retry = none)
    (hp : t.purpose = .sweep) : Acts 1 s { s with drv.travel := none, sweep.pass := .awaitingIndex } :=
  .move h ht (by simp [makeMove, hmoves, hretry, arrive, hp])

/-- The sweep waits for INDEX: nothing is due. -/
theorem nothingDue_awaitingIndex (h : Quiescent s) (hh : s.drv.holder = .sweep) (ht : s.drv.travel = none)
    (hp : s.sweep.pass = .awaitingIndex) : NothingDue s := by
  rw [NothingDue, nextAct_of_quiescent h]
  simp [holderAct, hh, ht, hp]

/-- A drive that stands where a positioning goes needs no order for it (R95, R149). -/
theorem acts_inPlace (h : MayMove s) (ht : s.drv.travel = some t) (hmoves : t.moves = [.reach, .select, .margin])
    (hrecord : s.drv.record = ⟨some t.cyl, some t.head, some t.strobe, some t.offset⟩) : Acts 3 s (leaving t [] s) := by
  have hreach : Acts 1 s (leaving t [.select, .margin] s) :=
    .move h ht (makeMove_there hmoves (by rw [hrecord]))
  have halign := acts_align (t := { t with moves := [.select, .margin] }) (s := leaving t [.select, .margin] s) h rfl rfl
    (by rw [hrecord])
  have hsame : aligned { t with moves := [.select, .margin] } (leaving t [.select, .margin] s) = leaving t [] s := by
    simp [hrecord]
  exact hsame ▸ hreach.trans halign

/-- The sweep on its track at once waits for INDEX (R149, R150). -/
theorem settles_sweepInPlace (h : Quiescent s) (hh : s.drv.holder = .sweep) (ht : s.drv.travel = some t)
    (hmoves : t.moves = [.reach, .select, .margin]) (hretry : t.retry = none) (hp : t.purpose = .sweep)
    (hrecord : s.drv.record = ⟨some t.cyl, some t.head, some t.strobe, some t.offset⟩) :
    Settles 4 s { s with drv.travel := none, sweep.pass := .awaitingIndex } := by
  have hmay : MayMove s := ⟨h, .inr (.inl hh)⟩
  have harrives := acts_sweepArrives (s := leaving t [] s) (t := { t with moves := [] }) hmay rfl rfl hretry hp
  exact .of_acts ((acts_inPlace hmay ht hmoves hrecord).trans harrives) (nothingDue_awaitingIndex h hh rfl rfl)

/-! ### The one retry of a failed step -/

/-- A party's failed step gets its one retry: CLEAR for a raised POSITION ERROR, then RETURN (R138). -/
theorem settles_retries {m : Move} {rest : List Move} (h : MayMove s)
    (ht : s.drv.travel = some { t with moves := retryMoves m, retry := some rest }) (hstepped : t.stepped = true) :
    Settles 2 s { s with
      drv.lines.positionError := false
      drv.lines.onCylinder := false
      drv.record.cyl := none
      drv.step := some ⟨.ret, some .restore, s.clock, s.svc.params.positionTimeout * 1000, false⟩
      drv.travel := some { t with
        moves := [.backTo, .select] ++ (if m = .margin then [.margin] else [])
        retry := some rest }
      out := s.out ++ (if s.drv.lines.positionError then [.order .clear] else []) ++ [.order .ret] } := by
  have hclear := makeMove_clear (s := s) (t := { t with moves := retryMoves m, retry := some rest }) rfl
  refine .of_acts ((Acts.move h ht hclear).trans (.move h rfl ((makeMove_restore rfl).trans ?_))) ?_
  · simp [hstepped]
  · obtain ⟨⟨hfree, -⟩, -⟩ := h
    exact nothingDue_of_stepping hfree rfl

/-- The moves of a device party's retry, with what goes on after it (R138). -/
abbrev retrying (m : Move) (t : Travel) (s : State) : State :=
  { s with drv.travel := some { t with moves := retryMoves m, retry := some (afterRetry m t.moves) } }

theorem travelFails_retries {m : Move} (hp : t.purpose = .rung) (hretry : t.retry = none) (hrest : restDue s = false) :
    travelFails m t s = retrying m t s := by
  simp [travelFails, hp, hretry, hrest]

/-! ### An episode ends -/

section
variable {x : Episode}

theorem resume_still (hh : s.drv.holder = .recovery) (ht : s.drv.travel = none) :
    resumeAfterFault x s = { s with drv.episode := none } := by
  cases hm : x.failedMove <;> simp [resumeAfterFault, hh, ht, hm]

/-- The sweep begins its track again (R125, R156). -/
theorem resume_sweeping (hh : s.drv.holder = .sweep) (hs : s.sweep.state = .sweeping) (hm : x.failedMove = none) :
    resumeAfterFault x s =
      { s with drv.episode := none, sweep := resetTrack s.sweep, drv.travel := some (sweepTravel s) } := by
  simp [resumeAfterFault, hh, hs, hm, sweepTravel, resetTrack, headCount]

/-- A step the episode ended as failed is retried (R125, R138). -/
theorem resume_retrying {m : Move} (hh : s.drv.holder = .recovery) (hm : x.failedMove = some m)
    (ht : s.drv.travel = some t) (hp : t.purpose = .rung) (hretry : t.retry = none) (hrest : restDue s = false) :
    resumeAfterFault x s = retrying m t { s with drv.episode := none } := by
  rw [← travelFails_retries (s := { s with drv.episode := none }) hp hretry hrest]
  simp [resumeAfterFault, hh, hm, ht]

end

/-! ### The obligation -/

/-- A FAULT that finds no device party (R25, R124). -/
theorem faultRises_free {dt : Nat} {b : State} (hb : begin dt s = b) (hd : b.drv.holder.isDevice = false) :
    exec (.driveFaultRises dt) s = .next (settle (lostClear { b with
      drv.lines.fault := true, drv.indexCount := 0, ctl.shownFault := b.ctl.shownFault || faultShows b })) := by
  show Host.Outcome.next (settle (lostClear (faultAtHolder { begin dt s with
      drv.lines.fault := true, drv.indexCount := 0,
      ctl.shownFault := (begin dt s).ctl.shownFault || faultShows (begin dt s) }))) = _
  rw [hb, faultAtHolder, if_neg (by simp [hd])]

/-- A party's FAULT begins an episode, after which nothing is due before FAULT falls or 50 ms pass (R125). -/
theorem faultRises_device {dt : Nat} {b : State} (hb : begin dt s = b) (hd : b.drv.holder.isDevice = true)
    (hpass : b.drv.passOn = .stays) (hepisode : b.drv.episode = none) (hturning : b.drv.condition = .turning)
    (hw : b.ctl.withhold = none) (hrest : restDue b = false) (hhead : b.drv.holder = .recovery ∨ b.seq.queue = [])
    (hc : (b.drv.capture.all fun c => decide (c.party ≠ .live)) = true) :
    exec (.driveFaultRises dt) s = .next (startEpisode { b with
      drv.lines.fault := true, drv.indexCount := 0, ctl.shownFault := b.ctl.shownFault || faultShows b }) := by
  let risen : State :=
    { b with drv.lines.fault := true, drv.indexCount := 0, ctl.shownFault := b.ctl.shownFault || faultShows b }
  have hbegins : faultAtHolder risen = startEpisode risen := if_pos ⟨hd, hpass, hepisode⟩
  show Host.Outcome.next (settle (lostClear (faultAtHolder { begin dt s with
      drv.lines.fault := true, drv.indexCount := 0,
      ctl.shownFault := (begin dt s).ctl.shownFault || faultShows (begin dt s) }))) = _
  have hbegun := startEpisode_device (s := risen) hc
  have hcondition : (startEpisode risen).drv.condition = .turning := by
    rw [hbegun]
    exact hturning
  have hyields : sweepYields (startEpisode risen) = false := by
    rw [hbegun]
    rcases hhead with hh | hq
    · exact sweepYields_of_holder (by simp [risen, hh])
    · exact sweepYields_of_headMayRun (headMayRun_of_empty hq)
  rw [hb, hbegins, lostClear_turning hcondition]
  refine congrArg Host.Outcome.next (settle_still ?_)
  rw [hbegun] at hyields ⊢
  exact nothingDue_of_inFlight ⟨hpass, hrest, noWithhold hw, hyields⟩ rfl

/-- Settles O55, clause by clause in the order of its lines. -/
theorem driveLinesAreSeen : Obligations.DriveLinesAreSeen := by
  intro dt level x j rest g m t s
  obtain ⟨work, idle, hbegin⟩ := begin_changes dt s
  rw [hbegin]
  intro b lines measured good clears reaches
  have shows : (b.ctl.shownFault || faultShows b) = (s.ctl.shownFault || liveOp s ||
      (decide (s.svc.mode = .passive) && decide (s.ctl.cyl ≠ serviceCylinder s))) := by
    rw [decide_not, Bool.or_assoc]
    rfl
  refine ⟨fun hm => ?shownPassive, fun hm => ?shown, ?readyFalls, fun hlost => ?readyFallsLost, fun hdue hc hp => ?index,
    ?readyRises, fun hdue hd => ?faultRises, fun hd hpass hepisode hturning hw hrest hhead hc => ?episode,
    fun hnone => ?faultFalls, fun hx hstep hc hpass hw hrest herror => ?resumes, ?protect⟩
  case shownPassive => simp [shownReady, shownProtect, isPassive, hm, lines]
  case shown => exact ⟨by simp [shownReady, isPassive, hm], shownProtect_iff hm⟩
  case readyFalls =>
    cases hcondition : s.drv.condition with
    | lost => exact ⟨_, readyFalls_lost hbegin hcondition, rfl, shownReady_eq rfl rfl⟩
    | turning =>
      have hready := settle_judgeLost_ready (readyFallen b)
      have hkeeps : KeepsGiven (readyFallen b) (settle (judgeLost (readyFallen b))) := by simp
      obtain ⟨⟨-, hsvc, -⟩, -⟩ := hkeeps
      exact ⟨_, readyFalls_turning hbegin hcondition, hready, shownReady_eq (by rw [hsvc]) hready⟩
  case readyFallsLost => exact readyFalls_lost hbegin hlost
  case index =>
    rw [driveIndex_quiet hbegin hc hp]
    have judged {u : State} (hu : judgeIndex measured = u) (still : NothingDue u) :
        Host.Outcome.next (φ := Fault) (ρ := Refusal) (settle (judgeIndex (measureIndex b))) = .next u :=
      congrArg Host.Outcome.next (settle_eq hu still)
    refine ⟨fun hturning => judged (judgeIndex_turning hturning) hdue, fun hlost hbad => judged ?_ hdue,
      fun hlost hgood hzero => judged ?_ hdue,
      fun hlost hgood hcount hidle => judged ?_ (nothingDue_turning (s := b) hdue hidle)⟩
    · exact (judgeIndex_lost (s := measured) hlost).trans (if_neg (ne_true_of_eq_false hbad))
    · exact (judgeIndex_lost (s := measured) hlost).trans ((if_pos hgood).trans (if_pos hzero))
    · exact (judgeIndex_lost (s := measured) hlost).trans ((if_pos hgood).trans (if_neg hcount))
  case readyRises =>
    show Host.Outcome.next (lostClear { begin dt s with drv.lines.ready := true, drv.clearArmed := true }) = _
    rw [hbegin, lostClear_eq]
    exact congrArg Host.Outcome.next (if_congr (by simp [lines]) rfl rfl)
  case faultRises =>
    rw [faultRises_free hbegin hd, shows]
    refine congrArg Host.Outcome.next (settle_eq ((lostClear_eq _).trans (if_congr ?_ rfl rfl)) ?_)
    · simp [clears, lines, and_assoc]
    · split
      · split
        · exact hdue
        · exact hdue
      · exact hdue
  case episode =>
    rw [faultRises_device hbegin hd hpass hepisode hturning hw hrest hhead hc, startEpisode_device (by exact hc), shows]
    rfl
  case faultFalls => exact faultFalls_none hbegin hnone
  case resumes =>
    rw [faultFalls_some hbegin hx]
    intro quiet lad worn
    have hfree (hyields : sweepYields b = false) : Unhindered b := ⟨hpass, hrest, noWithhold hw, hyields⟩
    refine ⟨fun hh ht hq hactive hrung hreads hbudget => ?reads, fun hh hsweeping hm hq hrecord => ?sweeps,
      fun hh hm ht hretry hp hstepped => ?retries⟩
    case reads =>
      rw [resume_still (s := { b with drv.lines.fault := false }) hh ht]
      refine congrArg Host.Outcome.next (settles_readsOn (s := quiet) (j := j) (g := g) ⟨?_, hactive, hrung, hreads, ?_⟩
        ⟨hfree (sweepYields_of_holder (by simp [b, hh])), hstep, hc, rfl⟩ hh ht).settle
      · simp [headJob, quiet, b, hq]
      · rw [isWorn_eq]
        exact hbudget
    case sweeps =>
      have hyields : sweepYields b = false := sweepYields_of_headMayRun (headMayRun_of_empty hq)
      rw [resume_sweeping (s := { b with drv.lines.fault := false }) hh hsweeping hm]
      exact congrArg Host.Outcome.next (settles_sweepInPlace (t := sweepTravel b)
        (s := { quiet with sweep := resetTrack s.sweep, drv.travel := some (sweepTravel b) })
        ⟨hfree hyields, hstep, hc, rfl⟩ hh rfl rfl rfl rfl hrecord).settle
    case retries =>
      rw [resume_retrying (s := { b with drv.lines.fault := false }) hh hm ht hp hretry hrest]
      refine congrArg Host.Outcome.next ((settles_retries (s := retrying m t quiet)
        ⟨⟨hfree (sweepYields_of_holder (by simp [b, hh])), hstep, hc, rfl⟩, .inl hh⟩ rfl hstepped).settle.trans ?_)
      have herror : s.drv.lines.positionError = false := herror
      simp [afterRetry, quiet, b, herror]
  case protect =>
    intro relayed
    refine ⟨?_, ?_⟩
    · show Host.Outcome.next { begin dt s with drv.lines.protect := level } = _
      rw [hbegin]
    · by_cases hm : s.svc.mode = .passive
      · simp [shownProtect, isPassive, relayed, b, hm]
      · rw [if_neg hm, shownProtect, shownProtect, if_neg (by simp [isPassive, relayed, b, hm]),
          if_neg (by simp [isPassive, hm])]
        rfl

end Sys2Proof.Machine
end

section
/-!
PROOFS. Grants: the head job comes to its rung and goes to it (R65, R90, R94, R95), the sweep comes to its track (R149,
R154), and a raised FAULT begins an episode instead (R125).
-/

namespace Sys2Proof.Machine

variable {s : State} {t : Travel} {j : Job} {others : List Job} {g : Rung} {i : Nat}

/-! ### The rung a job comes to -/

/-- The rung at which a job arrives: on a worn head the first whose offset is CENTRE (R94). -/
theorem skipWorn_comes (worn : Bool) (rungs : List Rung) (n i : Nat) (hn : rungs.length ≤ n + i) :
    skipWorn worn rungs n i = i + (rungs.drop i).findIdx fun r => !worn || decide (r.offset = .centre) := by
  induction n generalizing i with
  | zero => simp [skipWorn, List.drop_eq_nil_of_le (show rungs.length ≤ i by omega)]
  | succ n ih =>
    by_cases hi : i < rungs.length
    · have hskips := ih (i + 1) (by omega)
      rw [List.drop_eq_getElem_cons hi, List.findIdx_cons, skipWorn, List.getElem?_eq_getElem hi]
      dsimp only
      cases worn with
      | false => simp
      | true => by_cases hcentre : rungs[i].offset = .centre <;> simp [hcentre, hskips]; omega
    · simp [skipWorn, hi, List.drop_eq_nil_of_le (Nat.le_of_not_lt hi)]

theorem map_head_only {f : Job → Job} (h : ∀ x ∈ others, x.addr ≠ j.addr) :
    (j :: others).map (fun x => if x.addr = j.addr then f x else x) = f j :: others := by
  have hrest : others.map (fun x => if x.addr = j.addr then f x else x) = others :=
    (List.map_congr_left (g := id) fun x hx => if_neg (h x hx)).trans (List.map_id _)
  rw [List.map_cons, if_pos rfl, hrest]

/-- The head job's record changes, and no other's. -/
theorem updateJob_head {f : Job → Job} (hq : s.seq.queue = j :: others) (h : ∀ x ∈ others, x.addr ≠ j.addr) :
    updateJob j.addr f s = { s with seq.queue := f j :: others } := by
  rw [updateJob, hq, map_head_only h]

theorem jobOf_head (hq : s.seq.queue = j :: others) : jobOf s j.addr = some j := by simp [jobOf, hq]

/-- A job that stands at the rung it arrives at, or has no reads done there, comes to that rung (R90, R91, R94). -/
theorem startRung_comes (hq : s.seq.queue = j :: others) (h : ∀ x ∈ others, x.addr ≠ j.addr)
    (hskip : skipWorn (isWorn s j.addr.head) (ladderOf s j.ladder).rungs (ladderOf s j.ladder).rungs.length j.rungIndex = i)
    (hg : (ladderOf s j.ladder).rungs[i]? = some g) (hreads : i = j.rungIndex ∨ j.readsDone = 0) :
    startRung j.addr s =
      { s with seq.queue := { j with rungIndex := i } :: others, seq.workingRung := some g } := by
  have hlt : i < (ladderOf s j.ladder).rungs.length := (List.getElem?_eq_some_iff.1 hg).1
  have hplace : (if i = j.rungIndex then s
      else updateJob j.addr (fun j => { j with rungIndex := i, readsDone := 0 }) s) =
      { s with seq.queue := { j with rungIndex := i } :: others } := by
    split
    next hi => rw [hi, ← hq]
    next hi => rw [updateJob_head hq h, ← hreads.resolve_left hi]
  have harrive : arriveRung j.addr s = { s with seq.queue := { j with rungIndex := i } :: others } := by
    simp only [arriveRung, jobOf_head hq, hskip, if_neg (Nat.not_le.2 hlt)]
    exact hplace
  rw [startRung, harrive]
  simp only [headJob, List.head?_cons, if_true]
  exact congrArg (fun r => ({ s with seq.queue := { j with rungIndex := i } :: others, seq.workingRung := r } : State)) hg

/-! ### The grant to the head job -/

theorem setHolder_granted {x : Holder} (hx : x.isDevice = true) (h : s.drv.holder.isDevice = false) :
    setHolder x s = { s with drv.holder := x, drv.idle := 0 } := by
  simp [setHolder, h, hx]

/-- The head job with the drive granted, its rung read and the rung's positioning to make (R65, R90, R95). -/
abbrev granted (j : Job) (i : Nat) (others : List Job) (g : Rung) (s : State) : State :=
  { s with
    drv.holder := .recovery
    drv.idle := 0
    drv.travel := some (rungTravel { j with rungIndex := i } g)
    seq.queue := { j with rungIndex := i, state := .active } :: others
    seq.workingRung := some g }

/-- The grant (R65, R90, R94, R125): the job takes up its rung, and a raised FAULT begins an episode at once. -/
theorem grantHead_comes (hq : s.seq.queue = j :: others) (h : ∀ x ∈ others, x.addr ≠ j.addr)
    (hskip : skipWorn (isWorn s j.addr.head) (ladderOf s j.ladder).rungs (ladderOf s j.ladder).rungs.length j.rungIndex = i)
    (hg : (ladderOf s j.ladder).rungs[i]? = some g) (hreads : i = j.rungIndex ∨ j.readsDone = 0)
    (hleft : j.readsDone = 0 ∨ j.readsDone < g.reads) (hholder : s.drv.holder.isDevice = false)
    (hpass : s.drv.passOn = .stays) (hepisode : s.drv.episode = none) :
    grantHead s = if s.drv.lines.fault then startEpisode (granted j i others g s) else granted j i others g s := by
  let holding : State := { s with drv.holder := .recovery, drv.idle := 0, seq.queue := { j with state := .active } :: others }
  have hactive : updateJob j.addr (fun j => { j with state := .active }) (setHolder .recovery s) = holding := by
    rw [setHolder_granted rfl hholder]
    exact updateJob_head (s := { s with drv.holder := .recovery, drv.idle := 0 }) hq h
  have hstart := startRung_comes (s := holding) (j := { j with state := .active }) rfl h hskip hg hreads
  have htakes : takeUpRung j.addr (startRung j.addr holding) = granted j i others g s := by
    rw [show startRung j.addr holding = _ from hstart]
    simp only [takeUpRung, jobOf, List.find?_cons, decide_true]
    rw [if_neg (by omega)]
    rfl
  simp only [grantHead, show headJob s = some j by simp [headJob, hq], hactive, htakes]
  refine if_congr ?_ rfl rfl
  simp [hpass, hepisode]

/-- The positioning of a rung not begun that does not restore (R95). -/
theorem rungTravel_fresh (hreads : j.readsDone = 0) (hrestore : g.restoreFirst = false) : rungTravel j g =
    ⟨.rung, j.addr.cyl, j.addr.head, g.strobe, g.offset,
      [.reach, .select] ++ (if g.resetCopies then [.emptyCopies] else []) ++ [.margin], false, none⟩ := by
  simp [rungTravel, hreads, hrestore]

/-! ### The way to another cylinder -/

/-- A party's positioning on another cylinder begins with its POSITION step (R95, R121, R149). -/
theorem settles_seeks {ms : List Move} (h : MayMove s) (ht : s.drv.travel = some t) (hmoves : t.moves = .reach :: ms)
    (hstepped : t.stepped = false) (haway : s.drv.record.cyl ≠ some t.cyl) : Settles 1 s
    { s with
      drv.lines.positionError := false
      drv.lines.onCylinder := false
      drv.record.cyl := none
      drv.step := some ⟨.position t.cyl, some .reach, s.clock, s.svc.params.positionTimeout * 1000, false⟩
      drv.travel := some { t with moves := ms, stepped := true }
      out := s.out ++ (if s.drv.lines.positionError then [.order .clear] else []) ++ [.order (.position t.cyl)] } := by
  refine .of_acts (.move h ht ((makeMove_away hmoves haway).trans ?_)) ?_
  · simp [hstepped]
  · obtain ⟨⟨hfree, -⟩, -⟩ := h
    exact nothingDue_of_stepping hfree rfl

/-! ### The grant to the sweep -/

/-- With the cursor on a head that is not worn no track is skipped (R154). -/
theorem sweepSkips_stays {w : Sweep} (h : isWorn s (w.next % headCount s) = false) : sweepSkips s w = w := by
  unfold sweepSkips
  cases w.limit - w.base with
  | zero => rfl
  | succ n => exact if_neg fun hworn => by simp [wornTrack, h] at hworn

/-- The sweep granted the drive, its track to go to (R149). -/
abbrev sweepGranted (s : State) : State :=
  { s with
    drv.holder := .sweep
    drv.idle := 0
    drv.travel := some (sweepTravel s)
    sweep := { resetTrack s.sweep with state := .sweeping } }

theorem grantSweep_goes (hholder : s.drv.holder.isDevice = false) (hworn : isWorn s (s.sweep.next % headCount s) = false) :
    grantSweep s = if s.drv.lines.fault then startEpisode (sweepGranted s) else sweepGranted s := by
  have hskips := sweepSkips_stays (s := { s with drv.holder := .sweep, drv.idle := 0 })
    (w := { s.sweep with state := .sweeping }) hworn
  rw [grantSweep, setHolder_granted rfl hholder, hskips]
  rfl

end Sys2Proof.Machine
end

section
/-!
PROOFS. The timers of the view, the quiet interval and the duty limiter (R19, R131, R142 to R144).
-/

namespace Sys2Proof.Machine

variable {s : State} {j : Job} {others : List Job} {g : Rung}

/-! ### The quiet interval -/

/-- The controller's holding ends with the quiet interval (R131). -/
abbrev freed (s : State) : State := { s with drv.quietDue := none, drv.holder := .nobody }

theorem quietPasses_free (h : DriveFree s) (hh : s.drv.holder = .controller) : quietPasses s = freed s := by
  obtain ⟨hop, hw, hstep, -, -, -, hheld, hpass, -⟩ := h
  have huse : useInFlight { s with drv.quietDue := none } = false := by
    simp [useInFlight, liveOp, hop, hw, hheld, hstep]
  refine (if_neg (ne_true_of_eq_false huse)).trans ?_
  simp [hh, hstep, setHolder, Holder.isDevice, ← hpass]

theorem quietInterval_passes {due : Nat} (hdue : s.drv.quietDue = some due) :
    exec .quietInterval s = .next (settle (quietPasses (beginAt due s))) := by
  show execQuietInterval s = _
  simp only [execQuietInterval, hdue]

/-- With the drive freed, what is due is the arbiter's choice (R130). -/
theorem quiescent_freed (h : DriveFree s) : Quiescent (freed s) := by
  obtain ⟨-, hw, hstep, -, hcapture, hepisode, -, hpass, -, hrest⟩ := h
  exact ⟨⟨hpass, hrest, noWithhold hw, sweepYields_of_holder (by simp)⟩, hstep, hcapture, hepisode⟩

/-! ### A grant's positioning, or its episode -/

/-- What a grant sets off on a drive that stands elsewhere: the POSITION step, or with FAULT raised an episode (R95, R121,
R125, R149). -/
abbrev goesOff (c : Nat) (t : Travel) (s : State) : State :=
  { s with
    drv.lines.positionError := false
    drv.lines.onCylinder := s.drv.lines.onCylinder && s.drv.lines.fault
    drv.record.cyl := if s.drv.lines.fault then s.drv.record.cyl else none
    drv.episode := if s.drv.lines.fault then some ⟨s.clock, none⟩ else none
    drv.step := if s.drv.lines.fault then none else
      some ⟨.position c, some .reach, s.clock, s.svc.params.positionTimeout * 1000, false⟩
    drv.travel := some (if s.drv.lines.fault then t else { t with moves := t.moves.tail, stepped := true })
    out := s.out ++ (if s.drv.lines.fault || s.drv.lines.positionError then [.order .clear] else []) ++
      if s.drv.lines.fault then [] else [.order (.position c)] }

/-- A grant made: the holder's travel not begun, nothing in flight, another cylinder to reach. -/
theorem settles_goesOff {t : Travel} {ms : List Move} (h : Quiescent s) (hh : s.drv.holder = .recovery ∨ s.drv.holder = .sweep)
    (ht : s.drv.travel = some t) (hmoves : t.moves = .reach :: ms) (hstepped : t.stepped = false)
    (haway : s.drv.record.cyl ≠ some t.cyl) :
    Settles 1 (if s.drv.lines.fault then startEpisode s else s) (goesOff t.cyl t s) := by
  obtain ⟨hfree, hstep, hcapture, hepisode⟩ := id h
  cases hfault : s.drv.lines.fault with
  | true =>
    rw [if_pos rfl, startEpisode_device (by simp [hcapture])]
    refine Settles.of_eq ⟨0, by omega, .nil _, nothingDue_of_inFlight hfree rfl⟩ ?_
    simp [hfault, hcapture, hstep, ht]
  | false =>
    have hmay : MayMove s := ⟨h, hh.imp_right .inl⟩
    rw [if_neg (by simp)]
    refine (settles_seeks hmay ht hmoves hstepped haway).of_eq ?_
    simp [hfault, hepisode, hmoves]

/-! ### The sweep's skips that end it -/

/-- One worn track left before stop: the sweep ends DONE and gives up the drive (R154). -/
theorem grantSweep_done (hholder : s.drv.holder.isDevice = false) (h : HandsFree s)
    (hworn : isWorn s (s.sweep.next % headCount s) = true) (hroom : s.sweep.base < s.sweep.limit)
    (hstop : (if s.sweep.next + 1 = s.sweep.limit then s.sweep.base else s.sweep.next + 1) = s.sweep.stop) :
    grantSweep s = { s with
      drv.holder := .nobody
      drv.idle := 0
      sweep := { s.sweep with
        next := if s.sweep.next + 1 = s.sweep.limit then s.sweep.base else s.sweep.next + 1
        state := .done
        tracksSkipped := min (s.sweep.tracksSkipped + 1) 65535 } } := by
  obtain ⟨n, hn⟩ : ∃ n, s.sweep.limit - s.sweep.base = n + 1 := ⟨_, (Nat.succ_pred (by omega)).symm⟩
  let ended : Sweep := { s.sweep with
    next := if s.sweep.next + 1 = s.sweep.limit then s.sweep.base else s.sweep.next + 1
    state := .done
    tracksSkipped := min (s.sweep.tracksSkipped + 1) 65535 }
  have hends : advanceCursor { s.sweep with state := .sweeping, tracksSkipped := countUp s.sweep.tracksSkipped } = ended := by
    simp only [advanceCursor, ended, hstop, if_true]
    rfl
  have hstays : ∀ f n, skipTracks f n ended = ended := fun f n => by cases n <;> rfl
  have hskips : sweepSkips { s with drv.holder := .sweep, drv.idle := 0 } { s.sweep with state := .sweeping } = ended := by
    simp only [sweepSkips, hn, skipTracks]
    rw [if_pos ⟨by simp, hworn⟩, hends, hstays]
  obtain ⟨hstep, htravel, hcapture, hepisode, -, hrest⟩ := h
  rw [grantSweep, setHolder_granted rfl hholder]
  dsimp only
  rw [hskips, if_pos rfl]
  refine (giveUp_eq (s := { s with drv.holder := .sweep, drv.idle := 0, sweep := ended }) rfl hstep hrest
    (by simp [hcapture])).trans ?_
  simp [hcapture, htravel, hepisode, ended]

/-! ### The duty limiter -/

section
variable (hon : limiterOn s.svc.params = true) (hr : s.drv.resting = false)
include hon hr

theorem advance_toIdle (hd : s.drv.holder.isDevice = false) : advance (restDuration s - s.drv.idle) s =
    { s with
      clock := s.clock + (restDuration s - s.drv.idle)
      drv.idle := restDuration s
      drv.work := 0 } := by
  have hreached : restDuration s ≤ s.drv.idle + (restDuration s - s.drv.idle) := by omega
  simp only [advance, hon, hr, hd, Bool.not_false, Bool.and_true, if_true]
  simp only [restDuration] at hreached ⊢
  simp [hreached]

/-- The work counter at the work duration (R142). -/
abbrev worked (s : State) : State :=
  { s with
    clock := s.clock + (workDuration s - s.drv.work)
    drv.work := max s.drv.work (workDuration s)
    out := [] }

theorem workDurationReached_settles (hd : s.drv.holder.isDevice = true) (hm : s.svc.mode ≠ .passive) :
    exec .workDurationReached s = .next (settle (worked s)) := by
  have hwork : min (s.drv.work + (workDuration s - s.drv.work)) (max s.drv.work (workDuration s)) =
      max s.drv.work (workDuration s) := by omega
  show execWorkDurationReached s = _
  simp only [workDuration] at hwork
  simp [execWorkDurationReached, advance, hon, hr, hd, isPassive, hm, workDuration, hwork, worked]

theorem restDue_worked : restDue (worked s) = true := by
  simp [restDue, hon, hr, workDuration]

end

/-- A rest begun: a device party stood down, the drive given up (R73, R143). -/
abbrev restBegun (s : State) : State :=
  { s with
    drv.resting := true
    drv.work := workDuration s
    drv.restStart := s.clock
    drv.holder := .nobody
    drv.travel := none
    drv.episode := none
    seq.queue := s.seq.queue.map fun j => if j.state = .active then { j with state := .waiting } else j }

/-- At a point between part operations a due rest begins, and a withholding ends with it (R73, R143). -/
theorem acts_restBegins (hh : s.drv.holder = .recovery) (hpass : s.drv.passOn = .stays) (hc : s.drv.capture = none)
    (hstep : s.drv.step = none) (hretry : (s.drv.travel.all fun t => t.retry.isNone) = true)
    (hr : s.drv.resting = false) (hw : ∀ w, s.ctl.withhold = some w → w.limitPassed = false) (hrest : restDue s = true)
    (hsweep : s.sweep.state ≠ .sweeping) : Acts 1 s (endWithholdDemoting .rest (restBegun s)) := by
  have hpoint : restPoint s = true := by
    cases ht : s.drv.travel with
    | none => simp [restPoint, inRetry, hc, hstep, ht]
    | some t => simpa [restPoint, inRetry, hc, hstep, ht] using hretry
  have hlimit : limitEnds s = false := by
    cases hs : s.ctl.withhold with
    | none => simp [limitEnds, hs]
    | some w => simp [limitEnds, hs, hw w hs]
  refine .one (x := .restBegins) (by simp [nextAct, hpass, restMeetsWithhold, hr, hlimit, hrest, hpoint]) ?_
  have hgives : giveUp (interruptSweep (standDown (markResting s))) = restBegun s := by
    have hstays : interruptSweep (standDown (markResting s)) = standDown (markResting s) := if_neg hsweep
    have hdevice : (standDown (markResting s)).drv.holder.isDevice = true := by
      simp [standDown, markResting, hh, Holder.isDevice]
    rw [hstays, giveUp_eq hdevice hstep (by simp [standDown, markResting, restDue]) (by
      rw [show (standDown (markResting s)).drv.capture = none from hc]
      rfl)]
    simp [standDown, markResting, hc, workDuration]
  show beginRest s = _
  simp only [beginRest, show (markResting s).drv.holder.isDevice = true by simp [markResting, hh, Holder.isDevice],
    if_true, hgives]

end Sys2Proof.Machine
end

section
/-!
PROOFS. What the timers set off (R130, R131, R142 to R144): the grants at the quiet interval's end, the rest that begins or
waits, the withholding it ends, and its own end.
-/

namespace Sys2Proof.Machine

variable {s : State} {j : Job} {others : List Job} {g : Rung} {w : Withhold}

/-! ### The grants at the quiet interval's end -/

theorem deviceMayWork_of (hm : s.svc.mode ≠ .passive) (hturning : s.drv.condition = .turning)
    (hr : s.drv.resting = false) : deviceMayWork s = true := by
  simp [deviceMayWork, isPassive, hm, hturning, hr]

/-- A freed drive goes to a WAITING head job, which goes to its rung (R65, R94, R95, R130). -/
theorem settles_freed_head {i : Nat} (h : DriveFree s) (hmay : deviceMayWork s = true) (hq : s.seq.queue = j :: others)
    (hwaits : j.state = .waiting) (hothers : ∀ x ∈ others, x.addr ≠ j.addr)
    (hskip : skipWorn (isWorn s j.addr.head) (ladderOf s j.ladder).rungs (ladderOf s j.ladder).rungs.length j.rungIndex = i)
    (hg : (ladderOf s j.ladder).rungs[i]? = some g) (hreads : j.readsDone = 0) (hrestore : g.restoreFirst = false)
    (haway : s.drv.record.cyl ≠ some j.addr.cyl) :
    Settles 2 (freed s)
      (goesOff j.addr.cyl ⟨.rung, j.addr.cyl, j.addr.head, g.strobe, g.offset,
        [.reach, .select] ++ (if g.resetCopies then [.emptyCopies] else []) ++ [.margin], false, none⟩
        (granted j i others g (freed s))) := by
  obtain ⟨⟨hpass, hrest, hw, -⟩, hstep, hcapture, hepisode⟩ := id (quiescent_freed h)
  have hdue : nextAct (freed s) = some .grantRecovery := by
    rw [nextAct_of_quiescent (quiescent_freed h)]
    have hhead : headMayRun (freed s) = true := by
      show (deviceMayWork s && _) = true
      simp [hmay, headJob, hq, hwaits]
    simp [holderAct, hhead]
  have htravel := rungTravel_fresh (j := { j with rungIndex := i }) hreads hrestore
  have hgrant := grantHead_comes (s := freed s) hq hothers hskip hg (.inr hreads) (.inl hreads) rfl hpass hepisode
  have hgo := settles_goesOff (s := granted j i others g (freed s))
    ⟨⟨hpass, hrest, hw, sweepYields_of_holder (by simp)⟩, hstep, hcapture, hepisode⟩ (.inl rfl)
    (congrArg some htravel) rfl rfl haway
  exact Acts.settles (.one hdue hgrant) hgo

theorem quiescent_sweepGranted (h : DriveFree s) (hhead : headMayRun s = false) :
    Quiescent (sweepGranted (freed s)) := by
  obtain ⟨⟨hpass, hrest, hw, -⟩, hflight⟩ := quiescent_freed h
  exact ⟨⟨hpass, hrest, hw, sweepYields_of_headMayRun hhead⟩, hflight⟩

section
variable (h : DriveFree s) (hmay : deviceMayWork s = true) (hhead : headMayRun s = false)
  (hsweep : s.sweep.state = .waiting)
include h hmay hhead hsweep

theorem nextAct_freed_sweep : nextAct (freed s) = some .grantSweep := by
  have hnone : headMayRun (freed s) = false := hhead
  have hgranted : sweepMayRun (freed s) = true := by
    show (deviceMayWork s && decide (s.sweep.state = .waiting)) = true
    simp [hmay, hsweep]
  rw [nextAct_of_quiescent (quiescent_freed h)]
  simp [holderAct, hnone, hgranted]

/-- A freed drive no head job may have goes to the WAITING sweep, which goes to its track (R130, R149). -/
theorem settles_freed_sweep (hworn : isWorn s (s.sweep.next % headCount s) = false)
    (haway : s.drv.record.cyl ≠ some (s.sweep.next / headCount s)) :
    Settles 2 (freed s) (goesOff (s.sweep.next / headCount s) (sweepTravel s) (sweepGranted (freed s))) :=
  Acts.settles (.one (nextAct_freed_sweep h hmay hhead hsweep) (grantSweep_goes (s := freed s) rfl hworn))
    (settles_goesOff (s := sweepGranted (freed s)) (quiescent_sweepGranted h hhead) (.inr rfl) rfl rfl rfl haway)

/-- On its track at once the sweep waits for INDEX (R149, R150). -/
theorem settles_freed_onTrack (hworn : isWorn s (s.sweep.next % headCount s) = false) (hfault : s.drv.lines.fault = false)
    (hrecord : s.drv.record =
      ⟨some (s.sweep.next / headCount s), some (s.sweep.next % headCount s), some .nominal, some .centre⟩) :
    Settles 5 (freed s)
      { sweepGranted (freed s) with drv.travel := s.drv.travel, sweep.pass := .awaitingIndex } := by
  obtain ⟨-, -, -, htravel, -⟩ := id h
  rw [htravel]
  have hgrant := (grantSweep_goes (s := freed s) rfl hworn).trans (if_neg (by simp [hfault]))
  exact Acts.settles (.one (nextAct_freed_sweep h hmay hhead hsweep) hgrant)
    (settles_sweepInPlace (quiescent_sweepGranted h hhead) rfl rfl rfl rfl rfl hrecord)

/-- The skips that find stop leave the drive free and the sweep DONE (R154). -/
theorem settles_freed_done (hworn : isWorn s (s.sweep.next % headCount s) = true) (hroom : s.sweep.base < s.sweep.limit)
    (hstop : (if s.sweep.next + 1 = s.sweep.limit then s.sweep.base else s.sweep.next + 1) = s.sweep.stop) :
    Settles 1 (freed s) { freed s with
      drv.idle := 0
      sweep := { s.sweep with
        next := if s.sweep.next + 1 = s.sweep.limit then s.sweep.base else s.sweep.next + 1
        state := .done
        tracksSkipped := min (s.sweep.tracksSkipped + 1) 65535 } } := by
  obtain ⟨-, hw, hstep, htravel, hcapture, hepisode, -, hpass, -, hrest⟩ := id h
  have hdone := grantSweep_done (s := freed s) rfl ⟨hstep, htravel, hcapture, hepisode, hpass, hrest⟩ hworn hroom hstop
  refine .of_acts (.one (nextAct_freed_sweep h hmay hhead hsweep) hdone) ?_
  exact nothingDue_of_nobody rfl hpass hw hrest hhead (by simp [sweepMayRun])

end

/-! ### Rest -/

/-- A rest that finds no withholding leaves the drive free, and nothing may be granted in it (R130, R143). -/
theorem settles_rests (hw : s.ctl.withhold = none) (hh : s.drv.holder = .recovery) (hpass : s.drv.passOn = .stays)
    (hc : s.drv.capture = none) (hstep : s.drv.step = none)
    (hretry : (s.drv.travel.all fun t => t.retry.isNone) = true) (hr : s.drv.resting = false)
    (hrest : restDue s = true) (hsweep : s.sweep.state ≠ .sweeping) : Settles 1 s (restBegun s) := by
  have hbegins := acts_restBegins hh hpass hc hstep hretry hr (by simp [hw]) hrest hsweep
  have hends : endWithholdDemoting .rest (restBegun s) = restBegun s := by simp [endWithholdDemoting, hw]
  rw [hends] at hbegins
  refine .of_acts hbegins (nothingDue_of_nobody rfl hpass hw ?_ ?_ ?_)
  · simp [restDue]
  · simp [headMayRun, deviceMayWork]
  · simp [sweepMayRun, deviceMayWork]

/-- With a capture or a step in flight for RECOVERY a due rest waits (R143). -/
theorem nothingDue_restWaits (hw : s.ctl.withhold = none) (hh : s.drv.holder = .recovery) (hpass : s.drv.passOn = .stays)
    (hflight : s.drv.capture.isSome = true ∨ s.drv.step.isSome = true) : NothingDue s := by
  have hpoint : restPoint s = false := by
    simp only [restPoint, ← Option.not_isSome]
    rcases hflight with h | h <;> simp [h]
  have hbusy : (s.drv.step.isSome || s.drv.capture.isSome || s.drv.episode.isSome) = true := by
    rcases hflight with h | h <;> simp [h]
  refine (nothingDue_iff s).2 ⟨.inl hpass, ?_, ?_, by rw [hpoint, Bool.and_false], sweepYields_of_holder (by simp [hh]),
    .inl hbusy⟩
  · simp [restMeetsWithhold, hw]
  · simp [limitEnds, hw]

/-- A rest that ends the withholding of the only job demotes it and makes the live pass (R37, R76, R143). -/
theorem settles_restEndsWithhold (hw : s.ctl.withhold = some w) (hlimit : w.limitPassed = false)
    (hq : s.seq.queue = [j]) (ha : w.addr = j.addr) (hh : s.drv.holder = .recovery) (hpass : s.drv.passOn = .stays)
    (hc : s.drv.capture = none) (hstep : s.drv.step = none)
    (hretry : (s.drv.travel.all fun t => t.retry.isNone) = true) (hr : s.drv.resting = false)
    (hrest : restDue s = true) (hsweep : s.sweep.state ≠ .sweeping) (hturning : s.drv.condition = .turning)
    (hheld : s.drv.heldOrders = []) (hview : AtView s) :
    Settles 7 s (livePass j.addr (reported .rest w { restBegun s with
      seq.queue := [{ j with cls := .background, state := if j.state = .active then .waiting else j.state }] })) := by
  have hbegins := acts_restBegins hh hpass hc hstep hretry hr
    (fun x hx => Option.some.inj (hw.symm.trans hx) ▸ hlimit) hrest hsweep
  let back : Job := { j with cls := .background, state := if j.state = .active then .waiting else j.state }
  let demoted : State := { restBegun s with seq.queue := [back] }
  have hdemote : demoteJob j.addr (restBegun s) = demoted := by
    by_cases hj : j.state = .active
    · have hqueue : (restBegun s).seq.queue = [{ j with state := .waiting }] := by simp [hq, hj]
      refine (demoteJob_only hqueue).trans ((if_neg (by simp)).trans ?_)
      simp [demoted, back, hj]
    · have hqueue : (restBegun s).seq.queue = [j] := by simp [hq, hj]
      refine (demoteJob_only hqueue).trans ((if_neg hj).trans ?_)
      simp [demoted, back, hj]
  let waiting : State := controllers (wanting .liveRead j.addr (reported .rest w demoted))
  have hends : endWithholdDemoting .rest (restBegun s) = waiting := by
    rw [endWithholdDemoting, show (restBegun s).ctl.withhold = some w from hw]
    dsimp only
    rw [ha, hdemote, withholdLive, closeWithhold_eq (s := demoted) hw,
      dropReseat_none (s := reported .rest w demoted) rfl]
    exact (beginLive_wants (s := reported .rest w demoted) (.inr hturning)).trans (takeDrive_free rfl hpass)
  have hwaits : Waits waiting := by
    refine ⟨⟨⟨hpass, ?_, noWithhold rfl, sweepYields_of_holder (by simp [waiting])⟩, hstep, hc, rfl⟩, rfl, hheld, rfl, rfl⟩
    simp [restDue, waiting, demoted]
  obtain ⟨hrecord, herror⟩ := hview
  rw [hends] at hbegins
  refine Acts.settles hbegins ((settles_reseat_targets hwaits rfl (congrArg DriveRecord.cyl hrecord)
    (congrArg DriveRecord.offset hrecord) rfl (.inl rfl)).of_eq ?_)
  simp [waiting, demoted, back, hrecord, herror]
  rw [← herror]

/-- A rest's end finds the device idle and nothing to grant (R144). -/
theorem nothingDue_restEnded (hdue : NothingDue s) (hidle : DeviceIdle s) : NothingDue (endRest s) := by
  obtain ⟨hpass, -, hlimit, -, -, hact⟩ := (nothingDue_iff s).1 hdue
  obtain ⟨hhead, hsweep⟩ := mayRun_of_deviceIdle hidle
  obtain ⟨hhead', hsweep'⟩ := mayRun_of_deviceIdle (s := endRest s) hidle
  have hsame : holderAct (endRest s) = holderAct s := by
    simp only [holderAct, hhead, hsweep, hhead', hsweep']
    rfl
  refine (nothingDue_iff _).2 ⟨hpass, rfl, hlimit, ?_, sweepYields_of_headMayRun hhead', hsame ▸ hact⟩
  rw [restDue_of_noWork (s := endRest s) rfl, Bool.false_and]

/-! ### The obligation -/

/-- Settles O58, timer by timer. -/
theorem timersExpire : Obligations.TimersExpire := by
  intro due j others g w s work rest on
  refine ⟨fun hdue => ?settle, fun hdue hh hfree hidle => ?quiet, fun hdue hh hfree hm hturning hr => ?grants,
    fun hon hr hd => ?idle, fun hon hr hh hm hw hpass => ?work,
    fun hon hr hh hm hw hlimit hq ha hturning hview hpass hc hstep hretry hsweep hheld => ?withheld,
    fun hr hidle hfree => ?restEnds⟩
  case settle =>
    show execViewSettle s = _
    simp only [execViewSettle, hdue]
  case quiet =>
    obtain ⟨k, n, hbegin⟩ := beginAt_changes due s
    rw [quietInterval_passes hdue]
    rw [hbegin] at hfree ⊢
    obtain ⟨-, hw, -, -, -, -, -, hpass, -, hrest⟩ := id hfree
    obtain ⟨hhead, hsweep⟩ := mayRun_of_deviceIdle hidle
    rw [quietPasses_free hfree hh]
    exact congrArg Host.Outcome.next (settle_still (nothingDue_of_nobody rfl hpass hw hrest hhead hsweep))
  case grants =>
    obtain ⟨k, n, hbegin⟩ := beginAt_changes due s
    have hmay : deviceMayWork s = true := deviceMayWork_of hm hturning hr
    rw [quietInterval_passes hdue]
    rw [hbegin] at hfree ⊢
    rw [quietPasses_free hfree hh]
    intro now fault cleared goes
    refine ⟨fun hq hwaits hothers hreads => ?head, fun hhead hsweep => ?sweep⟩
    case head =>
      intro rungs worn i hg hrestore haway
      have hskip : skipWorn (isWorn s j.addr.head) rungs rungs.length j.rungIndex = i := by
        rw [isWorn_eq]
        exact skipWorn_comes worn rungs _ _ (by omega)
      exact congrArg Host.Outcome.next
        (settles_freed_head hfree hmay hq hwaits hothers hskip hg hreads hrestore haway).settle
    case sweep =>
      intro heads next worn after granted
      have hworn : isWorn s (next % heads) = worn next := isWorn_eq s _
      refine ⟨fun hno haway => ?_, fun hno hfault hrecord => ?_, fun hyes hroom hstop => ?_⟩
      · exact congrArg Host.Outcome.next
          (settles_freed_sweep hfree hmay hhead hsweep (hworn.trans hno) haway).settle
      · exact congrArg Host.Outcome.next
          (settles_freed_onTrack hfree hmay hhead hsweep (hworn.trans hno) hfault hrecord).settle
      · exact congrArg Host.Outcome.next
          (settles_freed_done hfree hmay hhead hsweep (hworn.trans hyes) hroom hstop).settle
  case idle =>
    have hlimits : limiterOn s.svc.params = true := hon
    show execIdleTimer s = _
    rw [execIdleTimer, advance_toIdle hon hr hd, hlimits, hr, hd]
    rfl
  case work =>
    intro reached
    rw [workDurationReached_settles hon hr (by simp [hh, Holder.isDevice]) hm]
    refine ⟨fun hflight => ?_, fun hc hstep hretry hsweep hheld => ?_⟩
    · exact congrArg Host.Outcome.next (settle_still (nothingDue_restWaits (s := worked s) hw hh hpass hflight))
    · exact congrArg Host.Outcome.next
        (settles_rests (s := worked s) hw hh hpass hc hstep hretry hr (restDue_worked hon hr) hsweep).settle
  case withheld =>
    rw [workDurationReached_settles hon hr (by simp [hh, Holder.isDevice]) hm]
    exact congrArg Host.Outcome.next (settles_restEndsWithhold (s := worked s) hw hlimit hq ha hh hpass hc hstep hretry hr
      (restDue_worked hon hr) hsweep hturning hheld hview).settle
  case restEnds =>
    obtain ⟨k, n, hbegin⟩ := beginAt_changes (s.drv.restStart + rest) s
    obtain ⟨-, -, hdue⟩ := hfree
    have hends : execRestEnds s = .next (settle (endRest (beginAt (s.drv.restStart + rest) s))) := if_pos hr
    show execRestEnds s = _
    rw [hends, hbegin]
    exact congrArg Host.Outcome.next (settle_still (nothingDue_restEnded (s := s) hdue hidle))

end Sys2Proof.Machine
end

section
/-!
PROOFS. How a positioning step ends (R20, R121): what the end makes of the drive's record, a relayed step shown, a party's
step behind which the drive passes on (R132, R134), a re-seat's failure (R123), and a completed step's positioning that
goes on (R95, R97, R122, R149).
-/

namespace Sys2Proof.Machine

variable {s b : State} {st : Step} {t : Travel} {m : Move}

/-! ### The step's end -/

/-- What a completed order makes of the drive's record (R120). -/
def settledRecord (o : Order) (r : DriveRecord) : DriveRecord :=
  match o with
  | .position c => { r with cyl := some c }
  | .ret => { r with cyl := some 0 }
  | .margin _ off => { r with offset := some off }
  | .head _ => r
  | .targetRead _ => r
  | .targetWrite _ => r
  | .clear => r

/-- The drive on cylinder, its step completed (R121). -/
abbrev onCylinderAfter (st : Step) (s : State) : State :=
  { s with
    drv.step := none
    drv.lines.onCylinder := true
    drv.record := settledRecord st.order s.drv.record }

theorem completeStep_eq (st : Step) (s : State) : completeStep st s = onCylinderAfter st s := by
  cases ho : st.order <;> simp [completeStep, settledRecord, ho]

theorem stepCompletes_party (hst : s.drv.step = some st) (hm : st.move = some m) :
    stepCompletes s = onCylinderAfter st s := by
  simp [stepCompletes, hst, hm, completeStep_eq]

theorem stepCompletes_relayed (hst : s.drv.step = some st) (hm : st.move = none) :
    stepCompletes s = relayedEnds true (onCylinderAfter st s) := by
  simp [stepCompletes, hst, hm, completeStep_eq]

theorem stepFails_relayed (hst : s.drv.step = some st) (hm : st.move = none) :
    stepFails s = relayedEnds false { s with drv.step := none } := by
  simp [stepFails, hst, hm]

theorem stepFails_travel (hst : s.drv.step = some st) (hm : st.move = some m) (hpass : s.drv.passOn = .stays)
    (ht : s.drv.travel = some t) : stepFails s = travelFails m t { s with drv.step := none } := by
  simp [stepFails, hst, hm, hpass, ht]

/-- A step whose party no longer has the drive is not retried (R132, R134). -/
theorem stepFails_passing (hst : s.drv.step = some st) (hm : st.move = some m) (hpass : s.drv.passOn ≠ .stays) :
    stepFails s = { s with drv.step := none } := by
  simp [stepFails, hst, hm, hpass]

theorem stepCompletes_exec {dt : Nat} (hb : begin dt s = b) :
    exec (.positioningStepCompletes dt) s = .next (settle (stepCompletes { b with drv.lines.onCylinder := true })) := by
  show execPositioningStepCompletes dt s = _
  rw [execPositioningStepCompletes, hb]

theorem stepFails_exec {dt : Nat} (hb : begin dt s = b) :
    exec (.positioningStepFails dt) s = .next (settle (stepFails { b with drv.lines.positionError := true })) := by
  show execPositioningStepFails dt s = _
  rw [execPositioningStepFails, hb]

theorem positionTimeout_exec (hst : s.drv.step = some st) (hb : beginAt (st.issuedAt + st.timeout) s = b) :
    exec .positionTimeout s = .next (settle (stepFails b)) := by
  show execPositionTimeout s = _
  simp only [execPositionTimeout, hst, hb]

theorem marginUnknownSettle_exec (hst : s.drv.step = some st) (hunknown : st.unknownOffset = true)
    (hline : s.drv.lines.onCylinder = true) (hb : beginAt (st.issuedAt + 10000) s = b) :
    exec .marginUnknownSettle s = .next (settle (stepCompletes b)) := by
  show execMarginUnknownSettle s = _
  simp only [execMarginUnknownSettle, hst]
  rw [if_pos ⟨hunknown, hline⟩, ← hb]
  rfl

/-! ### Relayed steps -/

/-- A relayed step's end shown in PASSIVE mode off V (R20, R23): the line after the drive's, or POSITION ERROR. -/
abbrev shownEnd (ok : Bool) (s : State) : State :=
  { s with
    drv.quietDue := some (s.clock + s.svc.params.quietInterval * 1000)
    ctl.shownOnCylinder := ok && !s.ctl.errorCleared
    ctl.shownPositionError := !ok || s.ctl.shownPositionError
    ctl.seekFailed := !ok || s.ctl.seekFailed }

theorem settle_relayedEnds (ok : Bool) (hm : s.svc.mode = .passive) (hoff : s.ctl.cyl ≠ serviceCylinder s)
    (hh : s.drv.holder = .controller) (hpass : s.drv.passOn = .stays) (hheld : s.drv.heldOrders = [])
    (hop : s.ctl.op = none) (hw : s.ctl.withhold = none) (ht : s.drv.travel = none) (hrest : restDue s = false) :
    settle (relayedEnds ok s) = shownEnd ok s := by
  have hshown : (isPassive s && !viewOnService s && !heldStep s) = true := by
    simp [isPassive, hm, viewOnService, hoff, heldStep, hheld]
  refine settle_eq ?_ (nothingDue_of_controllerRests hw hop hh hpass hheld ht hrest)
  cases ok
  · simp only [relayedEnds, hshown, if_true]
    exact endUse_controller hh
  · simp only [relayedEnds, hshown, if_true]
    exact endUse_controller hh

/-! ### A party's step behind which the drive passes on -/

theorem acts_passes (hpass : s.drv.passOn ≠ .stays) (hstep : s.drv.step = none) : Acts 1 s (passDrive s) :=
  .one (x := .pass) (if_pos ⟨hpass, by simp [hstep]⟩) rfl

/-- A step whose party gave up the drive leaves it with no one (R134). -/
theorem settles_passesOff (hpass : s.drv.passOn = .toNobody) (hstep : s.drv.step = none) (hw : s.ctl.withhold = none)
    (hidle : DeviceIdle s) (hrest : restDue s = false) :
    Settles 1 s { s with drv.holder := .nobody, drv.passOn := .stays } := by
  have hpasses : passDrive s = { s with drv.holder := .nobody, drv.passOn := .stays } := by
    simp only [passDrive, hpass]
    exact setHolder_nobody (s := { s with drv.passOn := .stays }) hrest
  obtain ⟨hhead, hsweep⟩ := mayRun_of_deviceIdle hidle
  refine .of_acts (hpasses ▸ acts_passes (by simp [hpass]) hstep) ?_
  exact nothingDue_of_nobody (s := { s with drv.holder := .nobody, drv.passOn := .stays }) rfl rfl hw hrest hhead hsweep

/-- A step that the controller's taking of the drive let end is followed by the re-seat's first order (R132). -/
theorem settles_passesToController {o : Op} (hpass : s.drv.passOn = .toController) (hstep : s.drv.step = none)
    (hw : s.ctl.withhold = none) (hrest : restDue s = false) (ht : s.drv.travel = none) (hc : s.drv.capture = none)
    (hepisode : s.drv.episode = none) (hheld : s.drv.heldOrders = []) (hop : s.ctl.op = some o)
    (hphase : o.phase = .awaitingDrive) (hk : o.kind = .liveRead ∨ o.kind = .liveWrite)
    (haway : s.drv.record.cyl ≠ some s.ctl.cyl) : Settles 4 s
    { s with
      drv.holder := .controller
      drv.passOn := .stays
      drv.quietDue := none
      drv.lines.onCylinder := false
      drv.lines.positionError := false
      drv.record.cyl := none
      drv.step := some ⟨.position s.ctl.cyl, some .reach, s.clock, s.svc.params.positionTimeout * 1000, false⟩
      drv.travel := some ⟨.reseatLive, s.ctl.cyl, s.ctl.head, s.ctl.strobe, s.ctl.offset, [.select, .margin], true, none⟩
      out := s.out ++ (if s.drv.lines.positionError then [.order .clear] else []) ++
        [.order (.position s.ctl.cyl)] } := by
  have hpasses : passDrive s = { s with drv.holder := .controller, drv.passOn := .stays } := by
    simp only [passDrive, hpass]
    exact setHolder_controller (s := { s with drv.passOn := .stays }) hrest
  have hawaits : awaitsDrive s = true := by
    rcases hk with hk | hk <;> simp [awaitsDrive, hop, hphase, hk]
  have hwaits : Waits { s with drv.holder := .controller, drv.passOn := .stays } :=
    ⟨⟨⟨rfl, hrest, noWithhold hw, sweepYields_of_holder (by simp)⟩, hstep, hc, hepisode⟩, rfl, hheld, ht, hawaits⟩
  exact Acts.settles (hpasses ▸ acts_passes (by simp [hpass]) hstep)
    (settles_reseat_seeks hwaits (reseatTravel_live (s := { s with drv.holder := .controller, drv.passOn := .stays }) hw)
      haway)

/-! ### A re-seat's failed step -/

/-- A re-seat's failed step ends its operation with POSITION ERROR shown, a withholding with its report (R123, R184). -/
abbrev reseatFailed (w : Withhold) (s : State) : State :=
  { s with
    drv.travel := none
    drv.quietDue := some (s.clock + s.svc.params.quietInterval * 1000)
    ctl.op := none
    ctl.withhold := none
    ctl.report := if s.ctl.withhold = none then s.ctl.report
      else some ⟨w.addr, .reseatFailed, min ((s.clock - w.begun) / 1000) 4095⟩
    ctl.shownPositionError := true
    ctl.shownOnCylinder := false
    ctl.seekFailed := true }

theorem travelFails_reseat {w : Withhold} (hh : s.drv.holder = .controller)
    (h : t.purpose = .reseatLive ∧ s.ctl.withhold = none ∨ t.purpose = .reseatWithhold ∧ s.ctl.withhold = some w) :
    travelFails m t s = reseatFailed w s := by
  rcases h with ⟨hp, hw⟩ | ⟨hp, hw⟩
  · simp [travelFails, hp, closeWithhold, hw, endUse, hh, Config.ms]
  · simp [travelFails, hp, closeWithhold_eq hw, endUse, hh, hw, Config.ms]

theorem settle_reseatFails {w : Withhold} (hh : s.drv.holder = .controller) (hpass : s.drv.passOn = .stays)
    (hheld : s.drv.heldOrders = []) (hrest : restDue s = false)
    (h : t.purpose = .reseatLive ∧ s.ctl.withhold = none ∨ t.purpose = .reseatWithhold ∧ s.ctl.withhold = some w) :
    settle (travelFails m t s) = reseatFailed w s :=
  settle_eq (travelFails_reseat hh h)
    (nothingDue_of_controllerRests (s := reseatFailed w s) rfl rfl hh hpass hheld rfl hrest)

/-! ### A completed step's positioning goes on -/

/-- A positioning with no step left: HEAD and the MARGIN that are needed are issued (R95). -/
abbrev broughtThere (t : Travel) (s : State) : State :=
  { leaving t [] s with
    drv.record := if t.moves = [] then s.drv.record else ⟨s.drv.record.cyl, some t.head, some t.strobe, some t.offset⟩
    out := s.out ++ if t.moves = [] then [] else aligning t s }

theorem acts_broughtThere (h : MayMove s) (ht : s.drv.travel = some t)
    (hmoves : t.moves = [] ∨ t.moves = [.select, .margin] ∧ s.drv.record.offset = some t.offset) :
    ∃ n, n ≤ 2 ∧ Acts n s (broughtThere t s) := by
  rcases hmoves with hnone | ⟨htwo, hoffset⟩
  · have hsame : broughtThere t s = s := by
      rw [broughtThere, if_pos hnone, if_pos hnone, List.append_nil, leaving, ← hnone, ← ht]
    exact ⟨0, by omega, hsame.symm ▸ .nil s⟩
  · have hsame : broughtThere t s = aligned t s := by simp [htwo]
    exact ⟨2, by omega, hsame ▸ acts_align h ht htwo hoffset⟩

/-- A positioning that needs no further step, then what its arrival sets off (R95). -/
theorem settles_broughtThere {k : Nat} {u : State} (h : MayMove s) (ht : s.drv.travel = some t)
    (hmoves : t.moves = [] ∨ t.moves = [.select, .margin] ∧ s.drv.record.offset = some t.offset)
    (hgo : Settles k (broughtThere t s) u) : Settles (k + 2) s u := by
  obtain ⟨n, hn, hacts⟩ := acts_broughtThere h ht hmoves
  obtain ⟨l, hl, hrest, still⟩ := hgo
  exact ⟨l + n, by omega, hacts.trans hrest, still⟩

section
variable (hquiet : Quiescent s) (ht : s.drv.travel = some t) (hmoves : t.moves = []) (hretry : t.retry = none)
include hquiet ht hmoves hretry

/-- A rung reached: the working rung's next read (R97). -/
theorem settles_rungReached {j : Job} {g : Rung} (hp : t.purpose = .rung) (hh : s.drv.holder = .recovery)
    (hreads : ReadsOn j g s) : Settles 2 s
    { s with
      drv.travel := none
      drv.capture := some ⟨.recovery, j.addr, false, 0⟩
      out := s.out ++ [.order (.targetRead j.addr.sec)] } := by
  have harrives : Acts 1 s { s with drv.travel := none } :=
    .move ⟨hquiet, .inl hh⟩ ht (by simp [makeMove, hmoves, hretry, arrive, hp])
  obtain ⟨hhead, hactive, hrung, hleft, hbudget⟩ := hreads
  exact harrives.settles (settles_readsOn (s := { s with drv.travel := none })
    ⟨hhead, hactive, hrung, hleft, hbudget⟩ hquiet hh rfl)

/-- A track reached: the sweep waits for INDEX (R149, R150). -/
theorem settles_trackReached (hp : t.purpose = .sweep) (hh : s.drv.holder = .sweep) :
    Settles 1 s { s with drv.travel := none, sweep.pass := .awaitingIndex } :=
  .of_acts (acts_sweepArrives ⟨hquiet, .inr (.inl hh)⟩ ht hmoves hretry hp)
    (nothingDue_awaitingIndex (s := { s with drv.travel := none, sweep.pass := .awaitingIndex }) hquiet hh rfl rfl)

/-- The view reached: the live target is issued (R32, R122). -/
theorem settles_viewReached {o : Op} (hp : t.purpose = .reseatLive) (hh : s.drv.holder = .controller)
    (hheld : s.drv.heldOrders = []) (hop : s.ctl.op = some o) (hk : o.kind = .liveRead ∨ o.kind = .liveWrite) :
    Settles 1 s (targetIssued o s) :=
  .of_acts (.move ⟨hquiet, .inr (.inr ⟨hh, hheld⟩)⟩ ht (makeMove_arrives_live hmoves hretry hp hop hk))
    (nothingDue_targetIssued hquiet hh hheld)

end

/-- HEAD, then a MARGIN that is a step, which nothing follows before it ends (R95, R121). -/
theorem settles_selectSettle (h : MayMove s) (ht : s.drv.travel = some t) (hmoves : t.moves = [.select, .margin])
    (hoffset : s.drv.record.offset ≠ some t.offset) (hclear : s.drv.lines.positionError = false) : Settles 2 s
    { s with
      drv.lines.onCylinder := s.drv.record.offset.isNone && s.drv.lines.onCylinder
      drv.record := ⟨s.drv.record.cyl, some t.head, some t.strobe, none⟩
      drv.step := some ⟨.margin t.strobe t.offset, some .margin, s.clock, s.svc.params.positionTimeout * 1000,
        s.drv.record.offset.isNone⟩
      drv.travel := some { t with moves := [], stepped := true }
      out := s.out ++ (if s.drv.record.head = some t.head then [] else [.order (.head t.head)]) ++
        [.order (.margin t.strobe t.offset)] } := by
  have hacts := acts_selectSettle h ht hmoves hoffset hclear
  obtain ⟨⟨hfree, -⟩, -⟩ := h
  refine Settles.of_eq (.of_acts hacts (nothingDue_of_stepping hfree rfl)) ?_
  simp [hclear]

end Sys2Proof.Machine
end

section
/-!
PROOFS. What a step's end hands to the jobs: the handover of a withholding (R36, R75, R135), and the job-level position
failure of a failed retry (R47, R74, R79, R139).
-/

namespace Sys2Proof.Machine

variable {s : State} {t : Travel} {j : Job} {rest : List Job} {g : Rung} {w : Withhold}

/-! ### A rung reached without a step -/

/-- A drive that stands where a rung reads needs no order for it; the rung's own emptying of the copies is made (R95). -/
theorem acts_rungInPlace (h : MayMove s) (ht : s.drv.travel = some (rungTravel j g)) (hrestore : g.restoreFirst = false)
    (hrecord : s.drv.record = ⟨some j.addr.cyl, some j.addr.head, some g.strobe, some g.offset⟩) :
    ∃ n, n ≤ 4 ∧ Acts n s { leaving (rungTravel j g) [] s with
      seq.copies := if g.resetCopies && decide (j.readsDone = 0) then [] else s.seq.copies } := by
  by_cases hresets : g.resetCopies = true ∧ j.readsDone = 0
  · obtain ⟨hcopies, hreads⟩ := hresets
    let t : Travel := rungTravel j g
    have hmoves : t.moves = [.reach, .select, .emptyCopies, .margin] := by
      simp [t, rungTravel_fresh hreads hrestore, hcopies]
    let chosen : State := selected { t with moves := [.select, .emptyCopies, .margin] } [.emptyCopies, .margin]
      (leaving t [.select, .emptyCopies, .margin] s)
    have hselected : chosen = leaving t [.emptyCopies, .margin] s := by
      simp [chosen, t, rungTravel, hrecord]
    have hreach : Acts 1 s (leaving t [.select, .emptyCopies, .margin] s) :=
      .move h ht (makeMove_there hmoves (by rw [hrecord]; rfl))
    have hselect : Acts 1 (leaving t [.select, .emptyCopies, .margin] s) chosen := .move h rfl (makeMove_select rfl)
    have hempty : Acts 1 (leaving t [.emptyCopies, .margin] s) { leaving t [.margin] s with seq.copies := [] } :=
      .move h rfl (makeMove_emptyCopies (t := { t with moves := [.emptyCopies, .margin] }) rfl)
    have hmargin : Acts 1 { leaving t [.margin] s with seq.copies := [] } { leaving t [] s with seq.copies := [] } := by
      refine .move h rfl ((makeMove_strobe (t := { t with moves := [.margin] }) rfl ?_).trans ?_)
      · rw [hrecord]
        rfl
      · simp [t, rungTravel, hrecord]
    refine ⟨4, by omega, ?_⟩
    have hall := hreach.trans ((hselected ▸ hselect).trans (hempty.trans hmargin))
    simpa [hcopies, hreads, t] using hall
  · have hmoves : (rungTravel j g).moves = [.reach, .select, .margin] := by
      by_cases hreads : j.readsDone = 0
      · simp [rungTravel_fresh hreads hrestore, show g.resetCopies = false by simpa [hreads] using hresets]
      · simp [rungTravel, hreads]
    refine ⟨3, by omega, ?_⟩
    have hall := acts_inPlace h ht hmoves hrecord
    simpa [hresets] using hall

/-! ### The handover -/

section
variable {o : Op} (hquiet : Quiescent s) (hh : s.drv.holder = .controller) (hheld : s.drv.heldOrders = [])
  (ht : s.drv.travel = some t) (hmoves : t.moves = []) (hretry : t.retry = none) (hp : t.purpose = .reseatWithhold)
  (hop : s.ctl.op = some o) (hq : s.seq.queue = j :: rest) (hfault : s.drv.lines.fault = false)
include hquiet hh hheld ht hmoves hretry hp hop hq hfault

/-- The state in which the drive is handed from CONTROLLER to RECOVERY (R36, R135). -/
abbrev handing (o : Op) (s : State) : State :=
  { s with drv.travel := none, drv.quietDue := none, ctl.op := some { o with phase := .awaitingMatch } }

omit hquiet hh hheld ht hfault in
theorem makeMove_handsOver : makeMove t s =
    if j.state = .voting then
      if (setHolder .recovery (handing o s)).drv.lines.fault then startEpisode (setHolder .recovery (handing o s))
      else setHolder .recovery (handing o s)
    else grantHead (handing o s) := by
  simp [makeMove, hmoves, hretry, arrive, hp, handOver, hop, headJob, hq]

/-- A VOTING job holds the drive through its vote (R36, R75). -/
theorem settles_handsOver_voting (hvoting : j.state = .voting) :
    Settles 1 s { handing o s with drv.holder := .recovery, drv.idle := 0 } := by
  have hgives : setHolder .recovery (handing o s) = { handing o s with drv.holder := .recovery, drv.idle := 0 } :=
    setHolder_granted rfl (by simp [hh, Holder.isDevice])
  have hmove := makeMove_handsOver hmoves hretry hp hop hq
  rw [if_pos hvoting, hgives, if_neg (by simp [hfault])] at hmove
  refine .of_acts (.move ⟨hquiet, .inr (.inr ⟨hh, hheld⟩)⟩ ht hmove) ?_
  obtain ⟨⟨hpass, hrest, hw, -⟩, hstep, hcapture, hepisode⟩ := hquiet
  have hafter : Quiescent { handing o s with drv.holder := .recovery, drv.idle := 0 } :=
    ⟨⟨hpass, hrest, hw, sweepYields_of_holder (by simp)⟩, hstep, hcapture, hepisode⟩
  rw [NothingDue, nextAct_of_quiescent hafter]
  simp [holderAct, headJob, hq, hvoting]

/-- A WAITING job is granted the drive, and on its rung at once it reads (R36, R65, R97, R135). -/
theorem settles_handsOver_waiting (hwaits : j.state = .waiting) (hothers : ∀ x ∈ rest, x.addr ≠ j.addr)
    (hg : (ladderOf s j.ladder).rungs[j.rungIndex]? = some g)
    (hworn : isWorn s j.addr.head = false ∨ g.offset = .centre) (hrestore : g.restoreFirst = false)
    (hreads : j.readsDone < g.reads)
    (hbudget : j.readsSpent < effectiveBudget (isWorn s j.addr.head) (ladderOf s j.ladder).budget)
    (hrecord : s.drv.record = ⟨some j.addr.cyl, some j.addr.head, some g.strobe, some g.offset⟩) : Settles 7 s
    { handing o s with
      drv.holder := .recovery
      drv.idle := 0
      seq := ⟨{ j with state := .active } :: rest,
        if g.resetCopies && decide (j.readsDone = 0) then [] else s.seq.copies, s.seq.lastVote, some g⟩
      drv.capture := some ⟨.recovery, j.addr, false, 0⟩
      out := s.out ++ [.order (.targetRead j.addr.sec)] } := by
  obtain ⟨⟨hpass, hrest, hw, -⟩, hstep, hcapture, hepisode⟩ := id hquiet
  let active : State := granted j j.rungIndex rest g (handing o s)
  have hgrant : grantHead (handing o s) = active :=
    (grantHead_comes (s := handing o s) hq hothers (skipWorn_stays hg hworn _) hg (.inl rfl) (.inr hreads)
      (by simp [hh, Holder.isDevice]) hpass hepisode).trans (if_neg (by simp [hfault]))
  have hmove := makeMove_handsOver hmoves hretry hp hop hq
  rw [if_neg (by simp [hwaits]), hgrant] at hmove
  have hafter : Quiescent active := ⟨⟨hpass, hrest, hw, sweepYields_of_holder (by simp [active])⟩, hstep, hcapture, hepisode⟩
  obtain ⟨n, hn, hplace⟩ := acts_rungInPlace (s := active) ⟨hafter, .inl rfl⟩ rfl hrestore hrecord
  have hread := settles_rungReached (s := { leaving (rungTravel j g) [] active with
      seq.copies := if g.resetCopies && decide (j.readsDone = 0) then [] else s.seq.copies })
    (j := { j with state := .active }) (g := g) hafter rfl rfl rfl rfl rfl ⟨rfl, rfl, rfl, hreads, hbudget⟩
  obtain ⟨k, hk, hacts, still⟩ := hread
  exact ⟨k + n + 1, by omega,
    (Acts.move ⟨hquiet, .inr (.inr ⟨hh, hheld⟩)⟩ ht hmove).trans (hplace.trans hacts), still⟩

end

/-! ### The first position failure -/

/-- A device party with its hands free gives up the drive at once (R134). -/
theorem giveUp_device (h : HandsFree s) (hd : s.drv.holder.isDevice = true) :
    giveUp s = { s with drv.holder := .nobody } := by
  obtain ⟨hstep, htravel, hcapture, hepisode, -, hrest⟩ := h
  rw [giveUp_eq hd hstep hrest (by simp [hcapture])]
  simp [hcapture, htravel, hepisode]

/-- A WAITING head with nothing of its own in hand goes behind others, or stays, with no further change (R70). -/
theorem reorder_workless {f : List Job → List Job} {k : Job} {q : List Job} (hseq : s.seq = ⟨k :: rest, [], none, none⟩)
    (hwaits : k.state = .waiting) (hf : f (k :: rest) = q)
    (hq : ∀ x ∈ q, x.addr = k.addr → x.state = .waiting ∧ x.readsDone = 0) :
    reorder f s = { s with seq := ⟨q, [], none, none⟩ } := by
  have hsame : q.map (fun x => if x.addr = k.addr then { x with state := .waiting, readsDone := 0 } else x) = q := by
    refine (List.map_congr_left (g := id) fun x hx => ?_).trans (List.map_id q)
    split
    next ha =>
      obtain ⟨hstate, hreads⟩ := hq x hx ha
      simp [← hstate, ← hreads]
    next => rfl
  unfold reorder
  simp only [headJob, hseq, List.head?_cons, hf, leaveHead, emptyHeadWork, updateJob, hsame, hwaits]
  split <;> simp

/-- The head job after its first position failure: no reads done, WAITING (R74). -/
abbrev sentBack (j : Job) : Job := { j with positionFailures := 1, readsDone := 0, state := .waiting }

/-- The head job's work emptied, the drive given up (R74, R134). -/
abbrev failedOnce (j : Job) (rest : List Job) (s : State) : State :=
  { s with seq := ⟨sentBack j :: rest, [], none, none⟩, drv.holder := .nobody }

section
variable (hfree : HandsFree s) (hd : s.drv.holder.isDevice = true) (hq : s.seq.queue = j :: rest)
  (hothers : ∀ x ∈ rest, x.addr ≠ j.addr)
include hfree hd hq hothers

theorem jobPositionFailure_first (hfirst : j.positionFailures = 0) : jobPositionFailure j.addr s =
    if isWithheld s j.addr then
      withholdLive .positionFailure j.addr (reorder (demoted j.addr) (failedOnce j rest s))
    else reorder (sentToTail j.addr) (failedOnce j rest s) := by
  have hwork : giveUp (emptyHeadWork (updateJob j.addr sentBack s)) = failedOnce j rest s := by
    rw [updateJob_head hq hothers]
    exact giveUp_device (s := emptyHeadWork { s with seq.queue := sentBack j :: rest }) hfree hd
  simp only [jobPositionFailure, jobOf_head hq, if_pos hfirst]
  show (if isWithheld (giveUp (emptyHeadWork (updateJob j.addr sentBack s))) j.addr = true then _ else _) = _
  rw [hwork]
  rfl

omit hfree hd hq in
theorem others_sentBack {k : Job} (hk : k.addr = j.addr → k.state = .waiting ∧ k.readsDone = 0) :
    ∀ x ∈ rest ++ [k], x.addr = (sentBack j).addr → x.state = .waiting ∧ x.readsDone = 0 := by
  intro x hx ha
  rcases List.mem_append.1 hx with hrest | hlast
  · exact absurd ha (hothers x hrest)
  · obtain rfl := List.mem_singleton.1 hlast
    exact hk ha

/-- A background job's first position failure sends it to the tail (R74). -/
theorem jobPositionFailure_sends (hfirst : j.positionFailures = 0) (hw : s.ctl.withhold = none)
    (hcls : j.cls = .background) : jobPositionFailure j.addr s =
    { s with seq := ⟨rest ++ [sentBack j], [], none, none⟩, drv.holder := .nobody } := by
  have hleft : withoutJob j.addr (sentBack j :: rest) = rest := by
    refine Eq.trans ?_ (withoutJob_of_not_mem hothers)
    simp [withoutJob]
  have htail : sentToTail j.addr (sentBack j :: rest) = rest ++ [sentBack j] := by
    simp [sentToTail, hleft, joinGroup, hcls]
  rw [jobPositionFailure_first hfree hd hq hothers hfirst, if_neg (by simp [isWithheld, hw])]
  exact reorder_workless (s := failedOnce j rest s) rfl rfl htail (others_sentBack hothers fun _ => ⟨rfl, rfl⟩)

/-- A withheld job's first position failure demotes it and makes the live pass (R37, R74). -/
theorem jobPositionFailure_demotes (hfirst : j.positionFailures = 0) (hw : s.ctl.withhold = some w)
    (ha : w.addr = j.addr) (hturning : s.drv.condition = .turning) : jobPositionFailure j.addr s =
    controllers (wanting .liveRead j.addr (reported .positionFailure w { s with
      seq := ⟨rest ++ [{ sentBack j with cls := .background }], [], none, none⟩, drv.holder := .nobody })) := by
  have hdemoted : reorder (demoted j.addr) (failedOnce j rest s) = { s with
      seq := ⟨rest ++ [{ sentBack j with cls := .background }], [], none, none⟩, drv.holder := .nobody } :=
    reorder_workless (s := failedOnce j rest s) rfl rfl (demoted_first (j := sentBack j) hothers)
      (others_sentBack hothers fun _ => ⟨rfl, rfl⟩)
  obtain ⟨-, htravel, -, -, hpass, -⟩ := id hfree
  rw [jobPositionFailure_first hfree hd hq hothers hfirst, if_pos (by simp [isWithheld, hw, ha]), hdemoted, withholdLive,
    closeWithhold_eq (by exact hw), dropReseat_none (by exact htravel), beginLive_wants (.inr (by exact hturning))]
  exact takeDrive_free rfl hpass

end

/-! ### The second position failure -/

/-- The notice of a LOST end, with its incident when it wears the head (R166, R167, R168). -/
theorem noticeLost_eq {n : Nat} {r : HeadRecord} (hr : s.heads[n]? = some r) : noticeLost n s =
    let worn := wornAt r (r.score - 24)
    { s with
      heads := s.heads.set n { r with score := r.score - 24, losses := min (r.losses + 1) 65535, worn := worn }
      log := if worn && !r.worn then loggedIn (.headWorn n) s s.log else s.log } := by
  let worn := wornAt r (r.score - 24)
  let debited : State :=
    { s with heads := s.heads.set n { r with score := r.score - 24, losses := min (r.losses + 1) 65535, worn := worn } }
  have hdebits : noticeLost n s =
      if worn && !r.worn then { debited with log := loggedIn (.headWorn n) s s.log } else debited := by
    simp only [noticeLost, changeHead, hr, evalWorn_eq, logIncident_eq]
    rfl
  rw [hdebits, apply_ite (fun log => ({ debited with log := log } : State))]

/-- A job's LOST end while it is the only job and none is withheld: the map, the log and its head (R79), and the drive
given up (R80). -/
theorem endLost_only {kind : LostKind} {r : HeadRecord} (hfree : HandsFree s) (hh : s.drv.holder = .recovery)
    (hq : s.seq.queue = [j]) (hactive : j.state = .active) (hw : s.ctl.withhold = none) (hclaim : s.map.claim = none)
    (hsweep : s.sweep.state = .idle) (hr : s.heads[j.addr.head]? = some r) : endLost j.addr kind s =
    { lostAs kind j r (s.seq.lastVote.or s.seq.copies.getLast?) s with
      seq := ⟨[], [], none, none⟩
      drv.holder := .nobody } := by
  have hbest : bestImage s = s.seq.lastVote.or s.seq.copies.getLast? := by
    cases hvote : s.seq.lastVote <;> simp [bestImage, hvote]
  let lost : State := lostAs kind j r (s.seq.lastVote.or s.seq.copies.getLast?) s
  have hlost : noticeLost j.addr.head (logIncident (.jobLost kind j.addr j.ladder j.rungIndex j.readsSpent j.lastWeak)
      (mapLost j.addr (s.seq.lastVote.or s.seq.copies.getLast?) j.readsSpent j.lastWeak s)) = lost := by
    rw [mapLost, settleInNewSlot_unclaimed hclaim, logIncident_eq, noticeLost_eq (by exact hr)]
    rfl
  have hleaves : removeJob j.addr lost = { lost with seq := ⟨[], [], none, none⟩, drv.holder := .nobody } := by
    rw [removeJob, reorder_withoutJob_first (s := lost) hq (by simp), if_pos ⟨by simp [hactive], hh⟩,
      if_neg (by simp [hactive]), giveUp_device (by exact hfree) (by simp [lost, hh, Holder.isDevice])]
    refine (noticeSweep_eq (by simp [lost, hsweep])).trans ?_
    simp [lost, hsweep]
    rw [← hsweep]
  simp only [endLost, jobOf_head hq, headJob, hq, List.head?_cons, Option.map_some, if_true, hbest, hlost, hleaves]
  exact if_neg (by simp [isWithheld, lost, hw])

end Sys2Proof.Machine
end

section
/-!
PROOFS. The end of a step, clause by clause (R20, R121 to R123, R134, R138, R139).
-/

namespace Sys2Proof.Machine

variable {s : State} {t : Travel} {m : Move} {j : Job} {rest : List Job}

/-- A retry's failure reaches the head job (R139). -/
theorem travelFails_again (hretry : t.retry.isSome = true) (hp : t.purpose = .rung) (hq : s.seq.queue = j :: rest) :
    travelFails m t s = jobPositionFailure j.addr { s with drv.travel := none } := by
  obtain ⟨again, hagain⟩ := Option.isSome_iff_exists.1 hretry
  simp [travelFails, hp, hagain, headJob, hq]

/-- The arbiter's grant to the head of a queue that waits, to a rung on another cylinder (R65, R95, R121, R130). -/
theorem settles_grant_seeks {others : List Job} {g : Rung} (hquiet : Quiescent s) (hh : s.drv.holder = .nobody)
    (hmay : deviceMayWork s = true) (hq : s.seq.queue = j :: others) (hwaits : j.state = .waiting)
    (hothers : ∀ x ∈ others, x.addr ≠ j.addr) (hfault : s.drv.lines.fault = false)
    (hg : (ladderOf s j.ladder).rungs[j.rungIndex]? = some g)
    (hworn : isWorn s j.addr.head = false ∨ g.offset = .centre) (hreads : j.readsDone = 0)
    (hrestore : g.restoreFirst = false) (haway : s.drv.record.cyl ≠ some j.addr.cyl) : Settles 2 s
    { granted j j.rungIndex others g s with
      drv.lines.positionError := false
      drv.lines.onCylinder := false
      drv.record.cyl := none
      drv.step := some ⟨.position j.addr.cyl, some .reach, s.clock, s.svc.params.positionTimeout * 1000, false⟩
      drv.travel := some ⟨.rung, j.addr.cyl, j.addr.head, g.strobe, g.offset,
        [.select] ++ (if g.resetCopies then [.emptyCopies] else []) ++ [.margin], true, none⟩
      out := s.out ++ (if s.drv.lines.positionError then [.order .clear] else []) ++
        [.order (.position j.addr.cyl)] } := by
  obtain ⟨⟨hpass, hrest, hw, -⟩, hstep, hcapture, hepisode⟩ := id hquiet
  have hdue : nextAct s = some .grantRecovery := by
    have hhead : headMayRun s = true := by simp [headMayRun, hmay, headJob, hq, hwaits]
    rw [nextAct_of_quiescent hquiet]
    simp [holderAct, hh, hhead]
  have hgrant := (grantHead_comes (s := s) hq hothers (skipWorn_stays hg hworn _) hg (.inl rfl) (.inl hreads)
    (by simp [hh, Holder.isDevice]) hpass hepisode).trans (if_neg (by simp [hfault]))
  have hmay : MayMove (granted j j.rungIndex others g s) :=
    ⟨⟨⟨hpass, hrest, hw, sweepYields_of_holder (by simp)⟩, hstep, hcapture, hepisode⟩, .inl rfl⟩
  exact Acts.settles (.one hdue hgrant)
    (settles_seeks hmay (congrArg some (rungTravel_fresh hreads hrestore)) rfl rfl haway)

/-- Settles O57: each way a step can end, relayed, a party's, a re-seat's. -/
theorem stepsEnd : Obligations.StepsEnd := by
  intro dt st t m j next rest others r h e o w s
  obtain ⟨work, idle, hbegin⟩ := begin_changes dt s
  obtain ⟨lateWork, lateIdle, hlate⟩ := beginAt_changes (st.issuedAt + st.timeout) s
  obtain ⟨calmWork, calmIdle, hcalm⟩ := beginAt_changes (st.issuedAt + 10000) s
  rw [hbegin, hlate, hcalm]
  intro b hst record timedOut
  have hrecord : record = settledRecord st.order s.drv.record := by
    cases ho : st.order <;> simp [record, settledRecord, ho]
  clear_value record
  subst hrecord
  let reachedEnd : State := onCylinderAfter st b
  let raised : State := { b with drv.lines.positionError := true }
  have completes {u : State} (hu : settle (stepCompletes { b with drv.lines.onCylinder := true }) = u) :
      exec (.positioningStepCompletes dt) s = .next u := (stepCompletes_exec hbegin).trans (congrArg Host.Outcome.next hu)
  have fails {u : State} (hu : settle (stepFails raised) = u) :
      exec (.positioningStepFails dt) s = .next u := (stepFails_exec hbegin).trans (congrArg Host.Outcome.next hu)
  have expires {u : State} (hu : settle (stepFails timedOut) = u) :
      exec .positionTimeout s = .next u := (positionTimeout_exec hst hlate).trans (congrArg Host.Outcome.next hu)
  have party (hm : st.move = some m) : stepCompletes { b with drv.lines.onCylinder := true } = reachedEnd :=
    stepCompletes_party (s := { b with drv.lines.onCylinder := true }) hst hm
  refine ⟨fun hm hmode hoff hop hw ht hc hepisode hheld hpass hh => ?relayed,
    fun hm ht hretry hp hstepped hh hpass hc hepisode hw hrest => ?retried,
    fun hm ht hretry hpass hc hepisode hw hrest => ?goesOn,
    fun hm ht hretry hp hmoves hh hpass hheld hc hepisode hw hlimit hresting hfault hrest hop hq hothers => ?handsOver,
    fun hm ht hretry hp hh hpass hc hepisode hheld hrest hq hothers hactive hturning hmode hresting => ?failsAgain,
    fun hm hpass hd ht hc hepisode hheld hw hop hphase hk => ?taken,
    fun hm ht hpass hh hc hepisode hheld hpurpose => ?reseat,
    fun hm hpass hw hidle => ?givenUp⟩
  case relayed =>
    intro completed failed settled
    refine ⟨fun hrest => ⟨completes ?_, fails ?_⟩, fun hrest => expires ?_, fun hrest hunknown hline => ?_⟩
    · rw [stepCompletes_relayed (s := { b with drv.lines.onCylinder := true }) hst hm]
      exact settle_relayedEnds (s := reachedEnd) true hmode hoff hh hpass hheld hop hw ht hrest
    · rw [stepFails_relayed (s := raised) hst hm]
      exact settle_relayedEnds (s := { raised with drv.step := none }) false hmode hoff hh hpass hheld hop hw ht hrest
    · rw [stepFails_relayed (s := timedOut) hst hm]
      exact settle_relayedEnds (s := { timedOut with drv.step := none }) false hmode hoff hh hpass hheld hop hw ht hrest
    · refine (marginUnknownSettle_exec hst hunknown hline hcalm).trans (congrArg Host.Outcome.next ?_)
      rw [stepCompletes_relayed (s := settled) hst hm]
      exact settle_relayedEnds (s := onCylinderAfter st settled) true hmode hoff hh hpass hheld hop hw ht hrest
  case retried =>
    refine fails ?_
    rw [stepFails_travel (s := raised) hst hm hpass ht,
      travelFails_retries (s := { raised with drv.step := none }) hp hretry hrest]
    exact (settles_retries (s := retrying m t { raised with drv.step := none })
      ⟨⟨⟨hpass, hrest, noWithhold hw, sweepYields_of_holder (by simp [b, hh, raised])⟩, rfl, hc, hepisode⟩, .inl hh⟩ rfl
      hstepped).settle
  case goesOn =>
    intro select reached
    have quiet (hyields : sweepYields s = false) : Quiescent reachedEnd :=
      ⟨⟨hpass, hrest, noWithhold hw, hyields⟩, rfl, hc, hepisode⟩
    refine ⟨fun hmoves => ⟨fun hp hh hhead hactive hrung hleft hbudget => ?_, fun hp hh hsweeping hyields => ?_,
      fun hp hh hheld hop => ?_⟩, fun hmoves hoffset hclear hholder => ?_⟩
    · have hquiet := quiet (sweepYields_of_holder (by simp [hh]))
      refine completes ((congrArg settle (party hm)).trans (settles_broughtThere ⟨hquiet, .inl hh⟩ ht hmoves
        (settles_rungReached (s := broughtThere t reachedEnd) hquiet rfl rfl hretry hp hh
          ⟨hhead, hactive, hrung, hleft, hbudget⟩)).settle)
    · have hquiet := quiet hyields
      refine completes ((congrArg settle (party hm)).trans (settles_broughtThere ⟨hquiet, .inr (.inl hh)⟩ ht hmoves
        (settles_trackReached (s := broughtThere t reachedEnd) hquiet rfl rfl hretry hp hh)).settle)
    · have hquiet := quiet (sweepYields_of_holder (by simp [hh]))
      have issues (hk : o.kind = .liveRead ∨ o.kind = .liveWrite) :=
        completes ((congrArg settle (party hm)).trans (settles_broughtThere ⟨hquiet, .inr (.inr ⟨hh, hheld⟩)⟩ ht hmoves
          (settles_viewReached (s := broughtThere t reachedEnd) hquiet rfl rfl hretry hp hh hheld hop hk)).settle)
      refine ⟨fun hk => (issues (.inl hk)).trans ?_, fun hk => (issues (.inr hk)).trans ?_⟩
      · simp only [targetIssued, hk, if_true]
        rfl
      · simp only [targetIssued, hk]
        rfl
    · have hyields : sweepYields s = false := by
        rcases hholder with hh | ⟨-, hyields⟩ | ⟨hh, -⟩
        · exact sweepYields_of_holder (by simp [hh])
        · exact hyields
        · exact sweepYields_of_holder (by simp [hh])
      have hmay : MayMove reachedEnd := ⟨quiet hyields, hholder.imp_right (.imp_left And.left)⟩
      refine completes ((congrArg settle (party hm)).trans
        ((settles_selectSettle (s := reachedEnd) hmay ht hmoves hoffset hclear).settle.trans ?_))
      simp only [reachedEnd, Bool.and_true]
      rfl
  case handsOver =>
    intro handed
    have hquiet : Quiescent reachedEnd := by
      refine ⟨⟨hpass, hrest, fun x hx => ?_, sweepYields_of_holder (by simp [reachedEnd, b, hh])⟩, rfl, hc, hepisode⟩
      obtain rfl : w = x := Option.some.inj (hw.symm.trans hx)
      exact ⟨hlimit, hresting⟩
    refine ⟨fun hvoting => completes ((congrArg settle (party hm)).trans ?_),
      fun hwaits hg hworn hrestore hreads hbudget hplace => completes ((congrArg settle (party hm)).trans ?_)⟩
    · exact (settles_handsOver_voting hquiet hh hheld ht hmoves hretry hp hop hq hfault hvoting).settle
    · exact (settles_handsOver_waiting hquiet hh hheld ht hmoves hretry hp hop hq hfault hwaits hothers hg hworn hrestore
        hreads hbudget hplace).settle
  case failsAgain =>
    intro failing sent positions
    have hfree : HandsFree failing := ⟨rfl, rfl, hc, hepisode, hpass, hrest⟩
    have hd : failing.drv.holder.isDevice = true := by simp [failing, b, hh, Holder.isDevice]
    have hfails : stepFails raised = jobPositionFailure j.addr failing :=
      (stepFails_travel (s := raised) hst hm hpass ht).trans
        (travelFails_again (s := { raised with drv.step := none }) hretry hp hq)
    refine ⟨fun hfirst hw hcls hnext hwaits hreads hunique hfault hg hworn hrestore haway => ?_,
      fun hfirst hw ha haway => ?_, fun hsecond hw honly hsweep hentry hbody hclaim hhead => ?_⟩
    · let sentOn : State := { failing with seq := ⟨rest ++ [sent], [], none, none⟩, drv.holder := .nobody }
      have hsends : stepFails raised = sentOn :=
        hfails.trans (jobPositionFailure_sends (s := failing) hfree hd hq hothers hfirst hw hcls)
      have hquiet : Quiescent sentOn :=
        ⟨⟨hpass, hrest, noWithhold hw, sweepYields_of_holder (by simp [sentOn])⟩, rfl, hc, hepisode⟩
      refine fails ((congrArg settle hsends).trans ((settles_grant_seeks (s := sentOn) hquiet rfl
        (deviceMayWork_of (s := s) hmode hturning hresting) hnext hwaits hunique hfault hg hworn hreads hrestore
        haway).settle.trans ?_))
      simp [sentOn, failing, b, hh]
    · let alive : State := controllers (wanting .liveRead j.addr (reported .positionFailure w { failing with
        seq := ⟨rest ++ [{ sent with cls := .background }], [], none, none⟩, drv.holder := .nobody }))
      have hdemotes : stepFails raised = alive :=
        hfails.trans (jobPositionFailure_demotes (s := failing) hfree hd hq hothers hfirst hw ha hturning)
      have hwaits : Waits alive :=
        ⟨⟨⟨hpass, hrest, noWithhold rfl, sweepYields_of_holder (by simp [alive])⟩, rfl, hc, hepisode⟩, rfl, hheld, rfl, rfl⟩
      exact fails ((congrArg settle hdemotes).trans (settles_reseat_seeks hwaits (reseatTravel_live rfl) haway).settle)
    · subst honly
      have hlost : stepFails raised = { lostAs .positionFailure j h (s.seq.lastVote.or s.seq.copies.getLast?) failing with
          seq := ⟨[], [], none, none⟩, drv.holder := .nobody } := by
        refine hfails.trans (Eq.trans ?_
          (endLost_only (s := failing) hfree hh hq hactive hw hclaim hsweep hhead))
        simp only [jobPositionFailure, jobOf_head (s := failing) hq, if_neg hsecond]
      refine fails ((congrArg settle hlost).trans (settle_still ?_))
      exact nothingDue_of_nobody rfl hpass hw hrest (headMayRun_of_empty rfl) (sweepMayRun_of_idle hsweep)
  case taken =>
    intro reseats
    have hpasses : s.drv.passOn ≠ .stays := by simp [hpass]
    refine ⟨fun hrest haway => completes ((congrArg settle (party hm)).trans ?_), fun hrest haway => fails ?_,
      fun hrest haway => expires ?_⟩
    · exact (settles_passesToController (s := reachedEnd) hpass rfl hw hrest ht hc hepisode hheld hop hphase hk haway).settle
    · rw [stepFails_passing (s := raised) hst hm hpasses]
      exact (settles_passesToController (s := { raised with drv.step := none }) hpass rfl hw hrest ht hc hepisode hheld hop
        hphase hk haway).settle
    · rw [stepFails_passing (s := timedOut) hst hm hpasses]
      exact (settles_passesToController (s := { timedOut with drv.step := none }) hpass rfl hw hrest ht hc hepisode hheld
        hop hphase hk haway).settle
  case reseat =>
    intro ends
    refine ⟨fun hrest => fails ?_, fun hrest => expires ?_⟩
    · rw [stepFails_travel (s := raised) hst hm hpass ht]
      exact settle_reseatFails (s := { raised with drv.step := none }) hh hpass hheld hrest hpurpose
    · rw [stepFails_travel (s := timedOut) hst hm hpass ht]
      exact settle_reseatFails (s := { timedOut with drv.step := none }) hh hpass hheld hrest hpurpose
  case givenUp =>
    intro freed
    have hpasses : s.drv.passOn ≠ .stays := by simp [hpass]
    refine ⟨fun hrest => ⟨completes ((congrArg settle (party hm)).trans ?_), fails ?_⟩, fun hrest => expires ?_⟩
    · exact (settles_passesOff (s := reachedEnd) hpass rfl hw hidle hrest).settle
    · rw [stepFails_passing (s := raised) hst hm hpasses]
      exact (settles_passesOff (s := { raised with drv.step := none }) hpass rfl hw hidle hrest).settle
    · rw [stepFails_passing (s := timedOut) hst hm hpasses]
      exact (settles_passesOff (s := { timedOut with drv.step := none }) hpass rfl hw hidle hrest).settle

end Sys2Proof.Machine
end

section
/-!
PROOFS. The image store's slots (R7, R40): a written slot reads back, and the slot a transition takes is the lowest free
one.
-/

namespace Sys2Proof.Machine

/-- Settles O8, by what a put leaves to find in a store in its canonical form. -/
theorem slotReadsBack : Obligations.SlotReadsBack := by
  intro k f s hwf hlen hwords
  obtain ⟨hsame, hothers⟩ := readSlot_putSlot (t := writeSlot k f s) hwf rfl rfl hlen hwords
  exact ⟨hsame, hothers, writeSlot_wf hwf⟩

/-- Among `n` slots from `k` on of which one is not taken, the lowest such one is found (R40). -/
theorem lowestFree_spec {taken : List Nat} {n k : Nat} (h : ∃ i, k ≤ i ∧ i < k + n ∧ i ∉ taken) :
    k ≤ lowestFree taken n k ∧ lowestFree taken n k < k + n ∧ lowestFree taken n k ∉ taken ∧
      ∀ i, k ≤ i → i < lowestFree taken n k → i ∈ taken := by
  induction n generalizing k with
  | zero =>
    obtain ⟨i, hk, hi, -⟩ := h
    omega
  | succ n ih =>
    unfold lowestFree
    split
    next hk =>
      have htaken : k ∈ taken := by simpa using hk
      obtain ⟨i, hki, hi, hfree⟩ := h
      have hne : i ≠ k := fun e => hfree (e ▸ htaken)
      obtain ⟨hge, hlt, hnot, hbelow⟩ := ih (k := k + 1) ⟨i, by omega, by omega, hfree⟩
      refine ⟨by omega, by omega, hnot, fun j hj hlow => ?_⟩
      rcases Nat.eq_or_lt_of_le hj with rfl | hlater
      · exact htaken
      · exact hbelow j hlater hlow
    next hk => exact ⟨Nat.le_refl k, by omega, by simpa using hk, fun i _ _ => by omega⟩

/-- Fewer taken numbers than there are leave one of them free. -/
theorem exists_not_mem_of_length_lt {taken : List Nat} {n : Nat} (h : taken.length < n) : ∃ i < n, i ∉ taken := by
  by_contra hall
  push Not at hall
  have hsub : List.range n ⊆ taken := fun i hi => hall i (List.mem_range.1 hi)
  have := (List.subperm_of_subset List.nodup_range hsub).length_le
  simp at this
  omega

/-- The slots a claim holds (R41). -/
def heldSlots (c : Option Claim) : List Nat := (c.bind Claim.slot).toList

theorem slotsClaimed_eq (s : State) : slotsClaimed s = heldSlots s.map.claim := by
  unfold slotsClaimed heldSlots
  cases s.map.claim <;> rfl

/-- With a slot that no entry names and no claim holds, the free slot is the lowest such one (R40). -/
theorem freeSlot_spec {s : State} (h : (slotsInUse s ++ heldSlots s.map.claim).length < 1024) :
    freeSlot s < 1024 ∧ freeSlot s ∉ slotsInUse s ++ heldSlots s.map.claim ∧
      ∀ k < freeSlot s, k ∈ slotsInUse s ++ heldSlots s.map.claim := by
  obtain ⟨i, hi, hfree⟩ := exists_not_mem_of_length_lt h
  obtain ⟨-, hlt, hnot, hbelow⟩ := lowestFree_spec (taken := slotsInUse s ++ heldSlots s.map.claim) (n := 1024) (k := 0)
    ⟨i, Nat.zero_le i, by omega, hfree⟩
  rw [freeSlot, slotsClaimed_eq]
  exact ⟨by simpa [Config.capacity] using hlt, hnot, fun k hk => hbelow k (Nat.zero_le k) hk⟩

/-- Settles O36: fewer than 1,024 slots are taken, and the search finds the lowest other. -/
theorem freeSlotIsLowest : Obligations.FreeSlotIsLowest := by
  intro s hfree
  rw [freeSlots, slotsClaimed_eq, Config.capacity] at hfree
  exact freeSlot_spec (by rw [List.length_append]; omega)

end Sys2Proof.Machine
end

section
/-!
PROOFS. The map's and the queue's lists (R38, R60): the address order under an entry added, rewritten or taken away, the
slots the entries name, and the queue's groups under a job that joins, leaves or changes its place.
-/

namespace Sys2Proof.Machine

/-! ### The order of addresses -/

theorem Addr.lt_iff (a b : Addr) :
    a.lt b = true ↔ a.cyl < b.cyl ∨ a.cyl = b.cyl ∧ (a.head < b.head ∨ a.head = b.head ∧ a.sec < b.sec) := by
  simp [Addr.lt]

theorem Addr.lt_irrefl (a : Addr) : a.lt a = false := by simp [Addr.lt]

theorem Addr.lt_trans {a b c : Addr} (h : a.lt b = true) (h' : b.lt c = true) : a.lt c = true := by
  rw [Addr.lt_iff] at *
  omega

theorem Addr.lt_of_not_lt {a b : Addr} (h : ¬a.lt b = true) (hne : b ≠ a) : b.lt a = true := by
  obtain ⟨c, n, k⟩ := a
  obtain ⟨c', n', k'⟩ := b
  simp only [Addr.lt_iff, ne_eq, Addr.mk.injEq] at *
  omega

/-- Entries in strictly rising address order (R38). -/
abbrev Ascending (es : List Entry) : Prop := es.Pairwise fun a b => a.addr.lt b.addr = true

theorem insertEntry_perm (e : Entry) (es : List Entry) : (insertEntry e es).Perm (e :: es) := by
  induction es with
  | nil => exact .refl _
  | cons x xs ih =>
    unfold insertEntry
    split
    · exact .refl _
    · exact (ih.cons x).trans (.swap e x xs)

theorem mem_insertEntry {e x : Entry} {es : List Entry} : x ∈ insertEntry e es ↔ x = e ∨ x ∈ es := by
  rw [(insertEntry_perm e es).mem_iff, List.mem_cons]

theorem findEntry_eq_none {es : List Entry} {a : Addr} : findEntry es a = none ↔ ∀ e ∈ es, e.addr ≠ a := by
  simp [findEntry]

/-- A new entry stands in its place (R38). -/
theorem ascending_insertEntry {e : Entry} {es : List Entry} (h : Ascending es) (hnew : findEntry es e.addr = none) :
    Ascending (insertEntry e es) := by
  induction es with
  | nil => simp [insertEntry, Ascending]
  | cons x xs ih =>
    obtain ⟨hx, hxs⟩ := List.pairwise_cons.1 h
    have hne : x.addr ≠ e.addr := findEntry_eq_none.1 hnew x (by simp)
    have hnew' : findEntry xs e.addr = none :=
      findEntry_eq_none.2 fun y hy => findEntry_eq_none.1 hnew y (by simp [hy])
    unfold insertEntry
    split
    next hlt =>
      refine List.pairwise_cons.2 ⟨fun y hy => ?_, h⟩
      rcases List.mem_cons.1 hy with rfl | hy
      · exact hlt
      · exact Addr.lt_trans hlt (hx y hy)
    next hlt =>
      refine List.pairwise_cons.2 ⟨fun y hy => ?_, ih hxs hnew'⟩
      rcases mem_insertEntry.1 hy with rfl | hy
      · exact Addr.lt_of_not_lt hlt hne
      · exact hx y hy

/-- Entries rewritten in place keep their order. -/
theorem ascending_map {f : Entry → Entry} (hf : ∀ e, (f e).addr = e.addr) {es : List Entry} (h : Ascending es) :
    Ascending (es.map f) := by
  rw [Ascending, List.pairwise_map]
  simpa [hf] using h

theorem withBody_keeps_addr (a : Addr) (b : EntryBody) (e : Entry) :
    (if e.addr = a then { e with body := b } else e).addr = e.addr := by
  split <;> rfl

theorem ascending_withBody {a : Addr} {b : EntryBody} {es : List Entry} (h : Ascending es) :
    Ascending (withBody a b es) :=
  ascending_map (withBody_keeps_addr a b) h

/-- The one entry of an address, with the others before and behind it. -/
theorem split_at_entry {es : List Entry} {a : Addr} {e : Entry} (h : Ascending es) (he : findEntry es a = some e) :
    ∃ before behind, es = before ++ e :: behind ∧ (∀ x ∈ before ++ behind, x.addr ≠ a) := by
  obtain ⟨haddr, before, behind, hes, hbefore⟩ := List.find?_eq_some_iff_append.1 he
  have haddr : e.addr = a := by simpa using haddr
  refine ⟨before, behind, hes, fun x hx => ?_⟩
  rcases List.mem_append.1 hx with hx | hx
  · simpa using hbefore x hx
  · rw [hes] at h
    have hlt := (List.pairwise_cons.1 (List.pairwise_append.1 h).2.1).1 x hx
    intro hxa
    rw [haddr, hxa, Addr.lt_irrefl] at hlt
    exact Bool.noConfusion hlt

theorem withBody_of_not_mem {a : Addr} {b : EntryBody} {es : List Entry} (h : ∀ x ∈ es, x.addr ≠ a) :
    withBody a b es = es :=
  (List.map_congr_left (g := id) fun x hx => if_neg (h x hx)).trans (List.map_id _)

/-- One entry rewritten among the others. -/
theorem withBody_split {a : Addr} {b : EntryBody} {e : Entry} {before behind : List Entry} (he : e.addr = a)
    (h : ∀ x ∈ before ++ behind, x.addr ≠ a) :
    withBody a b (before ++ e :: behind) = before ++ { e with body := b } :: behind := by
  have hbefore := withBody_of_not_mem (b := b) fun x hx => h x (List.mem_append_left behind hx)
  have hbehind := withBody_of_not_mem (b := b) fun x hx => h x (List.mem_append_right before hx)
  rw [withBody] at hbefore hbehind ⊢
  rw [List.map_append, List.map_cons, hbefore, hbehind, if_pos he]

/-! ### The slots entries name -/

/-- The slots that entries name (R40). -/
def usedSlots (es : List Entry) : List Nat := es.filterMap fun e => e.body.slot?

theorem slotsInUse_eq (s : State) : slotsInUse s = usedSlots s.map.entries := rfl

theorem usedSlots_perm {es es' : List Entry} (h : es.Perm es') : (usedSlots es).Perm (usedSlots es') := h.filterMap _

theorem usedSlots_append (es es' : List Entry) : usedSlots (es ++ es') = usedSlots es ++ usedSlots es' :=
  List.filterMap_append

theorem usedSlots_cons (e : Entry) (es : List Entry) : usedSlots (e :: es) = e.body.slot?.toList ++ usedSlots es := by
  cases h : e.body.slot? <;> simp [usedSlots, h]

/-- Every entry that is not PENDING names one slot. -/
theorem usedSlots_length (es : List Entry) :
    (usedSlots es).length + es.countP (fun e => decide (e.body = .pending)) = es.length := by
  induction es with
  | nil => rfl
  | cons e es ih =>
    rw [usedSlots_cons, List.countP_cons, List.length_append, List.length_cons]
    cases h : e.body <;> simp [EntryBody.slot?, ← ih] <;> omega

/-- A PENDING entry that takes a slot adds it to those named. -/
theorem usedSlots_settled {es : List Entry} {a : Addr} {e : Entry} {kind : Settled} {n k : Nat} {w : Option Nat}
    (h : Ascending es) (he : findEntry es a = some e) (hb : e.body = .pending) :
    (usedSlots (withBody a (.settled kind n w k) es)).Perm (k :: usedSlots es) := by
  obtain ⟨before, behind, rfl, hothers⟩ := split_at_entry h he
  rw [withBody_split (addr_of_findEntry he) hothers]
  simp only [usedSlots_append, usedSlots_cons, hb, EntryBody.slot?, Option.toList_some, Option.toList_none,
    List.nil_append, List.singleton_append]
  exact List.perm_middle

/-- An entry rewritten with the slot it has names no other. -/
theorem usedSlots_rewritten {es : List Entry} {a : Addr} {e : Entry} {b : EntryBody} (h : Ascending es)
    (he : findEntry es a = some e) (hb : b.slot? = e.body.slot?) : usedSlots (withBody a b es) = usedSlots es := by
  obtain ⟨before, behind, rfl, hothers⟩ := split_at_entry h he
  rw [withBody_split (addr_of_findEntry he) hothers]
  simp only [usedSlots_append, usedSlots_cons, hb]

theorem usedSlots_insertEntry (a : Addr) (org : Origin) (es : List Entry) :
    (usedSlots (insertEntry ⟨a, org, .pending⟩ es)).Perm (usedSlots es) :=
  usedSlots_perm (es' := ⟨a, org, .pending⟩ :: es) (insertEntry_perm _ es)

/-- Entries taken away name no slot any more, and those left name theirs in the same order. -/
theorem usedSlots_filter (p : Entry → Bool) (es : List Entry) : (usedSlots (es.filter p)).Sublist (usedSlots es) :=
  List.filter_sublist.filterMap _

/-! ### The queue's groups -/

/-- The queue by the places of its jobs (R60): within its room, one job for a sector, the FOREGROUND group first. -/
structure Grouped (q : List (Addr × JobClass)) : Prop where
  room : q.length ≤ 32
  once : (q.map Prod.fst).Nodup
  groups : q.Pairwise fun x y => x.2 = .background → y.2 = .background

theorem queueOk_iff (s : State) : QueueOk s ↔ Grouped (places s.seq.queue) := by
  have haddr : (places s.seq.queue).map Prod.fst = s.seq.queue.map Job.addr := by simp [places, Function.comp_def]
  have hgroups : (places s.seq.queue).Pairwise (fun x y => x.2 = .background → y.2 = .background) ↔
      s.seq.queue.Pairwise fun a b => a.cls = .background → b.cls = .background := by
    rw [places, List.pairwise_map]
  exact ⟨fun ⟨hroom, honce, hg⟩ => ⟨by simpa [places] using hroom, haddr ▸ honce, hgroups.2 hg⟩,
    fun ⟨hroom, honce, hg⟩ => ⟨by simpa [places] using hroom, haddr ▸ honce, hgroups.1 hg⟩⟩

/-- The sectors of the queue's jobs. -/
abbrev sectors (q : List Job) : List Addr := (places q).map Prod.fst

theorem sectors_eq (q : List Job) : sectors q = q.map Job.addr := by simp [sectors, places, Function.comp_def]

/-- Job records changed without their sector or class leave every place. -/
theorem places_map {f : Job → Job} (hf : ∀ j, (f j).addr = j.addr ∧ (f j).cls = j.cls) (q : List Job) :
    places (q.map f) = places q := by
  rw [places, List.map_map]
  exact List.map_congr_left fun j _ => Prod.ext (hf j).1 (hf j).2

theorem joinGroup_perm (j : Job) (q : List Job) : (joinGroup j q).Perm (j :: q) := by
  unfold joinGroup
  split
  · exact List.perm_append_singleton j q
  · have hsplit := List.filter_append_perm (fun x : Job => decide (x.cls = .foreground)) q
    simp only [ne_eq, decide_not]
    exact List.perm_middle.trans (hsplit.cons j)

/-- The FOREGROUND jobs stand before the BACKGROUND ones. -/
abbrev InGroups (q : List Job) : Prop := q.Pairwise fun a b => a.cls = .background → b.cls = .background

theorem inGroups_iff (q : List Job) :
    InGroups q ↔ (places q).Pairwise fun x y => x.2 = .background → y.2 = .background := by
  rw [places, List.pairwise_map]

/-- A job at the tail of its group leaves the groups as they are (R60). -/
theorem inGroups_joinGroup {j : Job} {q : List Job} (h : InGroups q) : InGroups (joinGroup j q) := by
  unfold joinGroup
  split
  next hj =>
    refine List.pairwise_append.2 ⟨h, List.pairwise_singleton _ _, fun x _ y hy _ => ?_⟩
    rw [List.mem_singleton.1 hy, hj]
  next hj =>
    refine List.pairwise_append.2 ⟨h.filter _, List.pairwise_cons.2 ⟨fun y hy hback => ?_, h.filter _⟩,
      fun x hx y hy hback => ?_⟩
    · rw [hj] at hback
      cases hback
    · have hfore : x.cls = .foreground := by simpa using (List.mem_filter.1 hx).2
      rw [hfore] at hback
      cases hback

theorem inGroups_withoutJob {a : Addr} {q : List Job} (h : InGroups q) : InGroups (withoutJob a q) := h.filter _

/-- A job found and set apart from the rest of the queue. -/
theorem found_perm {a : Addr} {j : Job} {q : List Job} (honce : (q.map Job.addr).Nodup)
    (hj : q.find? (fun j => decide (j.addr = a)) = some j) : (j :: withoutJob a q).Perm q := by
  obtain ⟨haddr, before, behind, rfl, hbefore⟩ := List.find?_eq_some_iff_append.1 hj
  have haddr : j.addr = a := by simpa using haddr
  have hbefore : ∀ x ∈ before, x.addr ≠ a := fun x hx => by simpa using hbefore x hx
  have hbehind : ∀ x ∈ behind, x.addr ≠ a := fun x hx hxa => by
    rw [List.map_append, List.map_cons, haddr] at honce
    exact (List.nodup_cons.1 (List.nodup_append.1 honce).2.1).1 (List.mem_map.2 ⟨x, hx, hxa⟩)
  have hleft : withoutJob a (before ++ j :: behind) = before ++ behind := by
    rw [withoutJob, List.filter_append, List.filter_cons_of_neg (by simp [haddr]), ← withoutJob, ← withoutJob,
      withoutJob_of_not_mem hbefore, withoutJob_of_not_mem hbehind]
  rw [hleft]
  exact List.perm_middle.symm

/-- A change of places that keeps the sectors and the groups. -/
structure Regroups (f : List Job → List Job) : Prop where
  same : ∀ q, (q.map Job.addr).Nodup → ((f q).map Job.addr).Perm (q.map Job.addr)
  groups : ∀ q, InGroups q → InGroups (f q)

theorem Grouped.regroup {f : List Job → List Job} (hf : Regroups f) {q : List Job} (h : Grouped (places q)) :
    Grouped (places (f q)) ∧ (sectors (f q)).Perm (sectors q) := by
  have honce : (q.map Job.addr).Nodup := sectors_eq q ▸ h.once
  have hperm : (sectors (f q)).Perm (sectors q) := by
    rw [sectors_eq, sectors_eq]
    exact hf.same q honce
  refine ⟨⟨?_, hperm.nodup_iff.2 h.once, (inGroups_iff _).1 (hf.groups q ((inGroups_iff q).2 h.groups))⟩, hperm⟩
  simpa using hperm.length_eq.trans_le (by simpa using h.room)

theorem regroups_promoted (a : Addr) : Regroups (promoted a) where
  same q honce := by
    unfold promoted
    split
    next j hj => simpa using (found_perm honce hj).map Job.addr
    next => exact .refl _
  groups q h := by
    unfold promoted
    split
    · exact List.pairwise_cons.2 ⟨fun _ _ hback => (nomatch hback), inGroups_withoutJob h⟩
    · exact h

theorem regroups_demoted (a : Addr) : Regroups (demoted a) where
  same q honce := by
    unfold demoted
    split
    next j hj =>
      exact ((joinGroup_perm _ _).map Job.addr).trans (by simpa using (found_perm honce hj).map Job.addr)
    next => exact .refl _
  groups q h := by
    unfold demoted
    split
    · exact inGroups_joinGroup (inGroups_withoutJob h)
    · exact h

theorem regroups_sentToTail (a : Addr) : Regroups (sentToTail a) where
  same q honce := by
    unfold sentToTail
    split
    next j hj =>
      exact ((joinGroup_perm _ _).map Job.addr).trans (by simpa using (found_perm honce hj).map Job.addr)
    next => exact .refl _
  groups q h := by
    unfold sentToTail
    split
    · exact inGroups_joinGroup (inGroups_withoutJob h)
    · exact h

/-- The queue without a sector's job. -/
theorem Grouped.without {q : List Job} (h : Grouped (places q)) (a : Addr) :
    Grouped (places (withoutJob a q)) ∧ ∀ x, x ∈ sectors (withoutJob a q) ↔ x ≠ a ∧ x ∈ sectors q := by
  have hsub : (places (withoutJob a q)).Sublist (places q) := List.filter_sublist.map _
  refine ⟨⟨hsub.length_le.trans h.room, h.once.sublist (hsub.map _), h.groups.sublist hsub⟩, fun x => ?_⟩
  rw [sectors_eq, sectors_eq, map_addr_withoutJob, List.mem_filter]
  simp [and_comm]

/-- A job of a sector without one joins a queue that has room. -/
theorem Grouped.join {q : List Job} {j : Job} (h : Grouped (places q)) (hnew : j.addr ∉ sectors q)
    (hroom : q.length < 32) :
    Grouped (places (joinGroup j q)) ∧ ∀ x, x ∈ sectors (joinGroup j q) ↔ x = j.addr ∨ x ∈ sectors q := by
  have hperm : (sectors (joinGroup j q)).Perm (j.addr :: sectors q) := by
    rw [sectors_eq, sectors_eq]
    exact (joinGroup_perm j q).map Job.addr
  refine ⟨⟨?_, hperm.nodup_iff.2 (List.nodup_cons.2 ⟨hnew, h.once⟩),
    (inGroups_iff _).1 (inGroups_joinGroup ((inGroups_iff q).2 h.groups))⟩, fun x => by rw [hperm.mem_iff, List.mem_cons]⟩
  have hlen := (joinGroup_perm j q).length_eq
  simp only [places, List.length_map, List.length_cons] at hlen ⊢
  omega

end Sys2Proof.Machine
end

section
/-!
PROOFS. What the map, the queue and the controller's operation keep of one another (R38, R40, R41, R60), said of the parts
of a state that it depends on, and how each change of these parts keeps it.
-/

namespace Sys2Proof.Machine

/-! ### The parts -/

/-- The map's room with a claim (R38, R40, R41). -/
structure RoomFits (es : List Entry) (c : Option Claim) : Prop where
  entries : es.length + (c.any Claim.entry).toNat ≤ 1024
  once : (usedSlots es ++ heldSlots c).Nodup
  range : ∀ k ∈ usedSlots es ++ heldSlots c, k < 1024

/-- A claim holds what its sector's entry still needs (R41, R43). -/
structure ClaimFits (es : List Entry) (c : Option Claim) : Prop where
  unmapped : ∀ k, c = some k → findEntry es k.addr = none → k.entry = true ∧ k.slot.isSome = true
  mapped : ∀ k e, c = some k → findEntry es k.addr = some e →
    k.entry = false ∧ (k.slot.isSome = true ↔ e.body = .pending)

/-- The field of a served write is in transfer: the time for which a claim stands (R41). -/
abbrev InTransfer (o : Op) : Prop := o.kind = .servedWrite ∧ o.phase = .transferring ∧ o.fieldEnded = false

/-- An operation's parts agree (R14, R16, R30, R128). -/
structure OpFits (o : Op) : Prop where
  due : o.matchDue.isSome = true →
    o.phase = .awaitingMatch ∧ o.kind ≠ .liveRead ∧ o.kind ≠ .liveWrite ∧ o.kind ≠ .withheld
  ended : o.fieldEnded = true → o.phase = .transferring
  refused : o.gateRefused = true → o.kind = .servedWrite ∧ o.phase = .awaitingGate
  withheld : o.kind = .withheld → o.phase = .awaitingDrive ∨ o.phase = .awaitingMatch

/-- A positioning made for the controller's operation (R122). -/
abbrev Reseats (x : Purpose) : Prop := x = .reseatLive ∨ x = .reseatWithhold

/-- The controller's operation with the claim, the withholding and the re-seat that stand for it (R36, R41, R122). -/
structure OpsFit (c : Option Claim) (op : Option Op) (w : Bool) (p : Option Purpose) : Prop where
  claimed : ∀ k, c = some k → ∃ o, op = some o ∧ InTransfer o ∧ o.addr = k.addr
  transfers : ∀ o, op = some o → InTransfer o → c.isSome = true
  withheld : w = true ↔ op.map Op.kind = some .withheld
  each : ∀ o, op = some o → OpFits o
  reseats : ∀ x, p = some x → Reseats x → ∃ o, op = some o ∧ o.phase = .awaitingDrive ∧
    (x = .reseatLive → o.kind = .liveRead ∨ o.kind = .liveWrite) ∧ (x = .reseatWithhold → o.kind = .withheld)

/-- Every PENDING entry has its job and every job its PENDING entry (R60), by the sectors of the jobs. -/
abbrev Matched (es : List Entry) (q : List (Addr × JobClass)) : Prop :=
  ∀ a, a ∈ q.map Prod.fst ↔ ∃ e ∈ es, e.addr = a ∧ e.body = .pending

/-- Where `st` holds the store is in its form; where `mq` holds map and queue are in order and match; where `full` holds the
map has room for its entries and its claim; where `ops` holds the operation agrees with what stands for it. -/
structure Coherent (st mq full ops : Prop) (es : List Entry) (store : List (Nat × List Byte)) (c : Option Claim)
    (q : List (Addr × JobClass)) (op : Option Op) (w : Bool) (p : Option Purpose) : Prop where
  within : ops → full
  ordered : full → mq
  store : st → Store.wf store = true
  map : mq → Ascending es
  queue : mq → Grouped q
  jobs : mq → Matched es q
  room : full → RoomFits es c
  claim : full → ClaimFits es c
  ops : ops → OpsFit c op w p

/-- The parts of a state that `Coherent` looks at. -/
abbrev InOrder (st mq full ops : Prop) (s : State) : Prop :=
  Coherent st mq full ops s.map.entries s.map.store s.map.claim (places s.seq.queue) s.ctl.op s.ctl.withhold.isSome
    (s.drv.travel.map Travel.purpose)

/-! ### The parts and the invariants -/

theorem roomOk_iff (s : State) : RoomOk s ↔ RoomFits s.map.entries s.map.claim := by
  have hentries : entriesClaimed s = (s.map.claim.any Claim.entry).toNat := by
    unfold entriesClaimed
    cases s.map.claim with
    | none => rfl
    | some c => cases h : c.entry <;> simp [h]
  unfold RoomOk
  rw [hentries, slotsClaimed_eq]
  exact ⟨fun ⟨hentries, honce, hrange⟩ => ⟨hentries, honce, hrange⟩,
    fun ⟨hentries, honce, hrange⟩ => ⟨hentries, honce, hrange⟩⟩

theorem claimOk_iff (s : State) : ClaimOk s ↔ ClaimFits s.map.entries s.map.claim ∧
    (∀ k, s.map.claim = some k → ∃ o, s.ctl.op = some o ∧ InTransfer o ∧ o.addr = k.addr) ∧
    ∀ o, s.ctl.op = some o → InTransfer o → s.map.claim.isSome = true := by
  unfold ClaimOk
  cases hc : s.map.claim with
  | none => exact ⟨fun h => ⟨⟨nofun, nofun⟩, nofun, fun o ho ht => absurd ht (h o ho)⟩,
      fun ⟨_, _, h⟩ o ho ht => Bool.noConfusion (h o ho ht)⟩
  | some c =>
    cases he : entryOf s c.addr with
    | none =>
      have he' : findEntry s.map.entries c.addr = none := he
      simp only [he]
      constructor
      · rintro ⟨hop, hheld⟩
        refine ⟨⟨fun k hk _ => Option.some.inj hk ▸ hheld, fun k e hk hke => ?_⟩, fun k hk => Option.some.inj hk ▸ hop,
          fun _ _ _ => rfl⟩
        rw [← Option.some.inj hk, he'] at hke
        cases hke
      · rintro ⟨⟨hunmapped, -⟩, hclaimed, -⟩
        exact ⟨hclaimed c rfl, hunmapped c rfl he'⟩
    | some e =>
      have he' : findEntry s.map.entries c.addr = some e := he
      simp only [he]
      constructor
      · rintro ⟨hop, hheld⟩
        refine ⟨⟨fun k hk hke => ?_, fun k e' hk hke => ?_⟩, fun k hk => Option.some.inj hk ▸ hop, fun _ _ _ => rfl⟩
        · rw [← Option.some.inj hk, he'] at hke
          cases hke
        · obtain rfl := Option.some.inj hk
          obtain rfl := Option.some.inj (he'.symm.trans hke)
          exact hheld
      · rintro ⟨⟨-, hmapped⟩, hclaimed, -⟩
        exact ⟨hclaimed c rfl, hmapped c e rfl he'⟩

theorem jobsMatch_iff (s : State) : JobsMatch s ↔ Matched s.map.entries (places s.seq.queue) := by
  refine forall_congr' fun a => iff_congr ?_ Iff.rfl
  rw [show (places s.seq.queue).map Prod.fst = _ from sectors_eq _, List.mem_map]

theorem opsFit_iff (s : State) : (ClaimOk s ∧ OperationOk s) ↔ ClaimFits s.map.entries s.map.claim ∧
    OpsFit s.map.claim s.ctl.op s.ctl.withhold.isSome (s.drv.travel.map Travel.purpose) := by
  rw [claimOk_iff]
  unfold OperationOk
  constructor
  · rintro ⟨⟨hfits, hclaimed, htransfers⟩, hw, hdue, heach, htravel⟩
    refine ⟨hfits, hclaimed, htransfers, hw, fun o ho => ?_, fun x hx hr => ?_⟩
    · obtain ⟨hended, hrefused, hheld⟩ := heach o ho
      exact ⟨hdue o ho, hended, hrefused, hheld⟩
    · obtain ⟨t, ht, rfl⟩ := Option.map_eq_some_iff.1 hx
      exact htravel t ht hr
  · rintro ⟨hfits, hclaimed, htransfers, hw, heach, htravel⟩
    exact ⟨⟨hfits, hclaimed, htransfers⟩, hw, fun o ho => (heach o ho).due,
      fun o ho => ⟨(heach o ho).ended, (heach o ho).refused, (heach o ho).withheld⟩,
      fun t ht hr => htravel t.purpose (by rw [ht, Option.map_some]) hr⟩

/-- The three invariants of map and queue, and under them those of room, claim and operation. -/
theorem inOrder_of {s : State} {full : Prop} (hmap : MapOk s) (hqueue : QueueOk s) (hjobs : JobsMatch s)
    (hfull : full → RoomOk s ∧ ClaimOk s ∧ OperationOk s) : InOrder False True full full s where
  within := id
  ordered := fun _ => trivial
  store := False.elim
  map := fun _ => hmap
  queue := fun _ => (queueOk_iff s).1 hqueue
  jobs := fun _ => (jobsMatch_iff s).1 hjobs
  room := fun h => (roomOk_iff s).1 (hfull h).1
  claim := fun h => ((opsFit_iff s).1 (hfull h).2).1
  ops := fun h => ((opsFit_iff s).1 (hfull h).2).2

theorem InOrder.invariants {s : State} {st full : Prop} (h : InOrder st True full full s) :
    MapOk s ∧ QueueOk s ∧ JobsMatch s ∧ (full → RoomOk s ∧ ClaimOk s ∧ OperationOk s) :=
  ⟨h.map trivial, (queueOk_iff s).2 (h.queue trivial), (jobsMatch_iff s).2 (h.jobs trivial),
    fun hf => ⟨(roomOk_iff s).2 (h.room hf), (opsFit_iff s).2 ⟨h.claim hf, h.ops hf⟩⟩⟩

/-! ### The operation and what stands for it -/

section
variable {c : Option Claim} {op : Option Op} {w : Bool} {p : Option Purpose} {o : Op}

/-- No claim stands but for a served write in transfer (R41). -/
theorem OpsFit.unclaimed (h : OpsFit c op w p) (hop : ∀ o, op = some o → ¬InTransfer o) : c = none := by
  cases hc : c with
  | none => rfl
  | some k =>
    obtain ⟨o, ho, ht, -⟩ := h.claimed k hc
    exact absurd ht (hop o ho)

theorem OpsFit.unclaimed_of_kind (h : OpsFit c (some o) w p) (hk : o.kind ≠ .servedWrite) : c = none :=
  h.unclaimed fun _ hx ht => hk (Option.some.inj hx ▸ ht.1)

theorem OpsFit.unclaimed_of_phase (h : OpsFit c (some o) w p) (hp : o.phase ≠ .transferring) : c = none :=
  h.unclaimed fun _ hx ht => hp (Option.some.inj hx ▸ ht.2.1)

/-- No re-seat is made but for an operation that awaits the drive (R122). -/
theorem OpsFit.unseated_of_phase (h : OpsFit c (some o) w p) (hp : o.phase ≠ .awaitingDrive) :
    ∀ x, p = some x → ¬Reseats x := fun x hx hr => by
  obtain ⟨o', ho', hphase, -⟩ := h.reseats x hx hr
  exact hp (Option.some.inj ho' ▸ hphase)

/-- A withholding's operation is a withheld one (R36). -/
theorem OpsFit.withheld_op (h : OpsFit c op true p) : ∃ o, op = some o ∧ o.kind = .withheld :=
  Option.map_eq_some_iff.1 (h.withheld.1 rfl)

theorem OpsFit.not_withheld (h : OpsFit c (some o) w p) (hk : o.kind ≠ .withheld) : w = false := by
  cases w with
  | false => rfl
  | true =>
    obtain ⟨o', ho', hkind⟩ := h.withheld_op
    exact absurd (Option.some.inj ho' ▸ hkind) hk

/-- With no operation nothing stands for one. -/
theorem opsFit_none (hp : ∀ x, p = some x → ¬Reseats x) : OpsFit none none false p :=
  ⟨nofun, nofun, by simp, nofun, fun x hx hr => absurd hr (hp x hx)⟩

/-- An operation without a claim, with the withholding and the re-seat that go with it. -/
theorem opsFit_some (ho : OpFits o) (ht : ¬InTransfer o) (hw : w = true ↔ o.kind = .withheld)
    (hp : ∀ x, p = some x → Reseats x → o.phase = .awaitingDrive ∧
      (x = .reseatLive → o.kind = .liveRead ∨ o.kind = .liveWrite) ∧ (x = .reseatWithhold → o.kind = .withheld)) :
    OpsFit none (some o) w p :=
  ⟨nofun, fun _ hx htr => absurd (Option.some.inj hx ▸ htr) ht, by simpa using hw, fun _ hx => Option.some.inj hx ▸ ho,
    fun x hx hr => ⟨o, rfl, hp x hx hr⟩⟩

theorem opFits_newOp (kind : OpKind) (a : Addr) (phase : Phase)
    (h : kind = .withheld → phase = .awaitingDrive ∨ phase = .awaitingMatch) : OpFits (newOp kind a phase) :=
  ⟨nofun, nofun, nofun, h⟩

/-- A claim's slot passed on leaves the claim with its write (R43). -/
def passedClaim (a : Addr) (c : Option Claim) : Option Claim :=
  c.map fun c => if c.addr = a then { c with slot := none } else c

theorem OpsFit.passed (h : OpsFit c op w p) (a : Addr) : OpsFit (passedClaim a c) op w p := by
  refine { h with
    claimed := fun k hk => ?_
    transfers := fun o ho ht => by rw [passedClaim, Option.isSome_map]; exact h.transfers o ho ht }
  obtain ⟨c', hc', rfl⟩ := Option.map_eq_some_iff.1 hk
  obtain ⟨o, ho, ht, haddr⟩ := h.claimed c' hc'
  exact ⟨o, ho, ht, haddr.trans (by split <;> rfl)⟩

end

/-! ### Changes of the parts -/

section
variable {st mq full ops : Prop} {es es' : List Entry} {store store' : List (Nat × List Byte)} {c c' : Option Claim}
  {q q' : List (Addr × JobClass)} {op op' : Option Op} {w w' : Bool} {p p' : Option Purpose} {x : Purpose}

/-- What map and queue keep does not depend on the operation. -/
theorem Coherent.mapOnly (h : Coherent st mq full ops es store c q op w p) :
    Coherent st mq full False es store c q op' w' p' :=
  { h with within := False.elim, ops := False.elim }

theorem Coherent.withOps (h : Coherent st mq full False es store c q op w p) (hfull : ops → full)
    (hops : ops → OpsFit c op' w' p') : Coherent st mq full ops es store c q op' w' p' :=
  { h with within := hfull, ops := hops }

/-- Another operation, with what stands for it. -/
theorem Coherent.reop (h : Coherent st mq full ops es store c q op w p)
    (hops : OpsFit c op w p → OpsFit c op' w' p') : Coherent st mq full ops es store c q op' w' p' :=
  (h.mapOnly (op' := op) (w' := w) (p' := p)).withOps h.within fun ho => hops (h.ops ho)

theorem Coherent.noTravel (h : Coherent st mq full ops es store c q op w p) :
    Coherent st mq full ops es store c q op w none :=
  h.reop fun ho => { ho with reseats := nofun }

/-- A device party's positioning in place of another. -/
theorem Coherent.deviceTravel (h : Coherent st mq full ops es store c q op w p) (hx : ¬Reseats x) :
    Coherent st mq full ops es store c q op w (some x) :=
  h.reop fun ho => { ho with reseats := fun _ hy hr => absurd (Option.some.inj hy ▸ hr) hx }

theorem Coherent.samePlaces (h : Coherent st mq full ops es store c q op w p) (e : q' = q) :
    Coherent st mq full ops es store c q' op w p := e ▸ h

/-- Another queue of the same sectors in their groups. -/
theorem Coherent.regroup {f : List Job → List Job} {js : List Job} (hf : Regroups f)
    (h : Coherent st mq full ops es store c (places js) op w p) :
    Coherent st mq full ops es store c (places (f js)) op w p :=
  { h with
    queue := fun hm => ((h.queue hm).regroup hf).1
    jobs := fun hm a => ((h.queue hm).regroup hf).2.mem_iff.trans (h.jobs hm a) }

end

/-! ### Changes of the map -/

section
variable {es : List Entry} {a : Addr} {e : Entry} {kind : Settled} {n k : Nat} {w : Option Nat} {c : Option Claim}
  {q : List (Addr × JobClass)}

theorem findEntry_of_mem (h : Ascending es) (he : e ∈ es) : findEntry es e.addr = some e := by
  obtain ⟨x, hx⟩ : ∃ x, findEntry es e.addr = some x := by
    cases hx : findEntry es e.addr with
    | none => exact absurd rfl (findEntry_eq_none.1 hx e he)
    | some x => exact ⟨x, rfl⟩
  obtain ⟨before, behind, hes, hothers⟩ := split_at_entry h hx
  rw [hes] at he
  rcases List.mem_append.1 he with hb | hb
  · exact absurd rfl (hothers e (List.mem_append_left _ hb))
  · rcases List.mem_cons.1 hb with rfl | hb
    · exact hx
    · exact absurd rfl (hothers e (List.mem_append_right _ hb))

theorem mem_of_findEntry (he : findEntry es a = some e) : e ∈ es := List.mem_of_find?_eq_some he

/-- A sector is PENDING when its one entry is. -/
theorem pending_iff (h : Ascending es) :
    (∃ e ∈ es, e.addr = a ∧ e.body = .pending) ↔ ∃ e, findEntry es a = some e ∧ e.body = .pending :=
  ⟨fun ⟨e, he, ha, hb⟩ => ⟨e, ha ▸ findEntry_of_mem h he, hb⟩,
    fun ⟨e, he, hb⟩ => ⟨e, mem_of_findEntry he, addr_of_findEntry he, hb⟩⟩

/-- The other sectors stay PENDING or not when one is settled. -/
theorem pending_settled {b : EntryBody} (hb : b ≠ .pending) (x : Addr) :
    (∃ e ∈ withBody a b es, e.addr = x ∧ e.body = .pending) ↔ x ≠ a ∧ ∃ e ∈ es, e.addr = x ∧ e.body = .pending := by
  constructor
  · rintro ⟨e, he, hx, hpend⟩
    obtain ⟨e', he', rfl⟩ := List.mem_map.1 he
    split at hx
    next ha => rw [if_pos ha] at hpend; exact absurd hpend hb
    next ha => rw [if_neg ha] at hpend; exact ⟨hx ▸ ha, e', he', hx, hpend⟩
  · rintro ⟨hx, e, he, rfl, hpend⟩
    exact ⟨e, List.mem_map.2 ⟨e, he, if_neg hx⟩, rfl, hpend⟩

theorem length_withBody (b : EntryBody) : (withBody a b es).length = es.length := List.length_map ..

/-- With a PENDING entry that no claim stands for there is a free slot for it (R40). -/
theorem slots_length_lt (h : Ascending es) (hroom : RoomFits es c) (hclaim : ClaimFits es c)
    (he : findEntry es a = some e) (hb : e.body = .pending) (hc : ∀ k, c = some k → k.addr ≠ a) :
    (usedSlots es ++ heldSlots c).length < 1024 := by
  have hlen := usedSlots_length es
  have hentries := hroom.entries
  obtain ⟨before, behind, hes, hothers⟩ := split_at_entry h he
  have hcount : es.countP (fun e => decide (e.body = .pending)) =
      (before ++ behind).countP (fun e => decide (e.body = .pending)) + 1 := by
    rw [hes, List.countP_append, List.countP_append, List.countP_cons_of_pos (by simpa using hb)]
    omega
  rw [List.length_append]
  cases c with
  | none => simp [heldSlots]; omega
  | some k =>
    have hheld : (heldSlots (some k)).length ≤ 1 := by
      cases hs : k.slot <;> simp [heldSlots, hs]
    cases hk : findEntry es k.addr with
    | none =>
      obtain ⟨hentry, -⟩ := hclaim.unmapped k rfl hk
      simp [hentry] at hentries
      omega
    | some x =>
      obtain ⟨-, hslot⟩ := hclaim.mapped k x rfl hk
      cases hs : k.slot with
      | none => simp [heldSlots, hs]; omega
      | some i =>
        have hpend : x.body = .pending := hslot.1 (by simp [hs])
        have hx : x ∈ before ++ behind := by
          have hmem := mem_of_findEntry hk
          rw [hes] at hmem
          rcases List.mem_append.1 hmem with hm | hm
          · exact List.mem_append_left _ hm
          · rcases List.mem_cons.1 hm with rfl | hm
            · exact absurd ((addr_of_findEntry hk).symm.trans (addr_of_findEntry he)) (hc k rfl)
            · exact List.mem_append_right _ hm
        have hother : 0 < (before ++ behind).countP (fun e => decide (e.body = .pending)) :=
          List.countP_pos_iff.2 ⟨x, hx, by simpa using hpend⟩
        omega

/-- A claim that stays fits the map while its sector's entry is as it was, or is settled as it was. -/
theorem ClaimFits.transfer {es' : List Entry} {c' : Option Claim} (h : ClaimFits es c)
    (hc : ∀ k, c' = some k → c = some k)
    (hsame : ∀ k, c' = some k → (findEntry es' k.addr).map (fun e => decide (e.body = .pending)) =
      (findEntry es k.addr).map (fun e => decide (e.body = .pending))) : ClaimFits es' c' := by
  refine ⟨fun k hk hnone => ?_, fun k e hk he => ?_⟩
  · have hs := hsame k hk
    rw [hnone, Option.map_none, eq_comm, Option.map_eq_none_iff] at hs
    exact h.unmapped k (hc k hk) hs
  · have hs := hsame k hk
    rw [he, Option.map_some, eq_comm, Option.map_eq_some_iff] at hs
    obtain ⟨x, hx, hpend⟩ := hs
    obtain ⟨hentry, hslot⟩ := h.mapped k x (hc k hk) hx
    exact ⟨hentry, hslot.trans (by simpa using hpend)⟩

/-- A PENDING entry settled into the slot found for it, a claim of its sector having passed its slot on (R40, R43). -/
theorem fits_settled {s : State} (h : Ascending s.map.entries) (hroom : RoomFits s.map.entries s.map.claim)
    (hclaim : ClaimFits s.map.entries s.map.claim) (he : findEntry s.map.entries a = some e) (hb : e.body = .pending) :
    RoomFits (withBody a (.settled kind n w (slotFor s a)) s.map.entries) (passedClaim a s.map.claim) ∧
      ClaimFits (withBody a (.settled kind n w (slotFor s a)) s.map.entries) (passedClaim a s.map.claim) := by
  have hused : ∀ k, (usedSlots (withBody a (.settled kind n w k) s.map.entries)).Perm (k :: usedSlots s.map.entries) :=
    fun k => usedSlots_settled h he hb
  by_cases hown : ∃ k, s.map.claim = some k ∧ k.addr = a
  · obtain ⟨k, hk, rfl⟩ := hown
    obtain ⟨hentry, hslot⟩ := hclaim.mapped k e hk he
    obtain ⟨i, hi⟩ := Option.isSome_iff_exists.1 (hslot.2 hb)
    have hpassed : passedClaim k.addr s.map.claim = some { k with slot := none } := by simp [passedClaim, hk]
    have hfor : slotFor s k.addr = i := by simp [slotFor, hk, hi]
    have hheld : heldSlots s.map.claim = [i] := by simp [heldSlots, hk, hi]
    have hperm : (usedSlots (withBody k.addr (.settled kind n w i) s.map.entries) ++
        heldSlots (some { k with slot := none })).Perm (usedSlots s.map.entries ++ heldSlots s.map.claim) := by
      rw [hheld]
      simpa [heldSlots] using (hused i).trans (List.perm_append_singleton i _).symm
    rw [hfor, hpassed]
    refine ⟨⟨?_, hperm.nodup_iff.2 hroom.once, fun x hx => hroom.range x (hperm.mem_iff.1 hx)⟩,
      ⟨fun x hx hnone => ?_, fun x y hx hy => ?_⟩⟩
    · have hentries := hroom.entries
      rw [length_withBody]
      simp [hentry]
      omega
    · obtain rfl := Option.some.inj hx
      rw [findEntry_withBody_same he] at hnone
      cases hnone
    · obtain rfl := Option.some.inj hx
      rw [findEntry_withBody_same he] at hy
      obtain rfl := Option.some.inj hy
      exact ⟨hentry, by simp⟩
  · have hother : ∀ k, s.map.claim = some k → k.addr ≠ a := fun k hk ha => hown ⟨k, hk, ha⟩
    have hpassed : passedClaim a s.map.claim = s.map.claim := by
      cases hc : s.map.claim with
      | none => rfl
      | some k => simp [passedClaim, hother k hc]
    have hfor : slotFor s a = freeSlot s := by
      cases hc : s.map.claim with
      | none => simp [slotFor, hc]
      | some k => simp [slotFor, hc, hother k hc]
    obtain ⟨hlt, hfree, -⟩ := freeSlot_spec (s := s) (slots_length_lt h hroom hclaim he hb hother)
    have hperm : (usedSlots (withBody a (.settled kind n w (freeSlot s)) s.map.entries) ++
        heldSlots s.map.claim).Perm (freeSlot s :: (usedSlots s.map.entries ++ heldSlots s.map.claim)) :=
      (hused _).append_right _
    rw [hfor, hpassed]
    refine ⟨⟨?_, hperm.nodup_iff.2 (List.nodup_cons.2 ⟨hfree, hroom.once⟩), fun x hx => ?_⟩,
      hclaim.transfer (fun _ hk => hk) fun k hk => ?_⟩
    · rw [length_withBody]
      exact hroom.entries
    · rcases List.mem_cons.1 (hperm.mem_iff.1 hx) with rfl | hx
      · exact hlt
      · exact hroom.range x hx
    · rw [findEntry_withBody_other (hother k hk)]

/-- A PENDING entry added for a sector that no claim stands for, with an entry free (R38, R45). -/
theorem fits_added {org : Origin} (hroom : RoomFits es c) (hclaim : ClaimFits es c) (hnew : findEntry es a = none)
    (hfree : es.length + (c.any Claim.entry).toNat < 1024) (hc : ∀ k, c = some k → k.addr ≠ a) :
    RoomFits (insertEntry ⟨a, org, .pending⟩ es) c ∧ ClaimFits (insertEntry ⟨a, org, .pending⟩ es) c := by
  have hperm := (usedSlots_insertEntry a org es).append_right (heldSlots c)
  refine ⟨⟨?_, hperm.nodup_iff.2 hroom.once, fun x hx => hroom.range x (hperm.mem_iff.1 hx)⟩,
    hclaim.transfer (fun _ hk => hk) fun k hk => ?_⟩
  · rw [(insertEntry_perm _ es).length_eq, List.length_cons]
    omega
  · rw [findEntry_insertEntry (e := ⟨a, org, .pending⟩) hnew, if_neg (hc k hk)]

/-- An entry settled in the slot it has (R40, R48). -/
theorem fits_rewritten {b : EntryBody} (h : Ascending es) (hroom : RoomFits es c) (hclaim : ClaimFits es c)
    (he : findEntry es a = some e) (hslot : b.slot? = e.body.slot?) (hb : b ≠ .pending) (hbody : e.body ≠ .pending) :
    RoomFits (withBody a b es) c ∧ ClaimFits (withBody a b es) c := by
  have hused := usedSlots_rewritten (a := a) h he hslot
  refine ⟨⟨by rw [length_withBody]; exact hroom.entries, by rw [hused]; exact hroom.once,
    by rw [hused]; exact hroom.range⟩, hclaim.transfer (fun _ hk => hk) fun k _ => ?_⟩
  rw [findEntry_withBody]
  split
  next ha => simp [ha, he, hb, hbody]
  next => rfl

end

end Sys2Proof.Machine
end

section
/-!
PROOFS. What the map, the queue and the controller's operation keep of one another (R38, R40, R41, R60) under the device's
own operations: one lemma for each operation, in the order of the definitions.
-/

namespace Sys2Proof.Machine

variable {st mq full ops : Prop} {s : State} {a : Addr}

theorem ite_inOrder {p : Prop} [Decidable p] {t : State} (hs : InOrder st mq full ops s) (ht : InOrder st mq full ops t) :
    InOrder st mq full ops (if p then s else t) := by
  split
  · exact hs
  · exact ht

/-! ### Time and the drive port -/

theorem begin_inOrder {dt : Nat} (h : InOrder st mq full ops s) : InOrder st mq full ops (begin dt s) := by
  obtain ⟨w, i, hb⟩ := begin_changes dt s
  rw [hb]
  exact h

theorem beginAt_inOrder {t : Nat} (h : InOrder st mq full ops s) : InOrder st mq full ops (beginAt t s) := begin_inOrder h

theorem issueOrder_inOrder {o : Order} (h : InOrder st mq full ops s) : InOrder st mq full ops (issueOrder o s) := by
  cases o
  case margin => exact ite_inOrder h h
  all_goals exact h

theorem issueStep_inOrder {o : Order} {m : Option Move} (h : InOrder st mq full ops s) :
    InOrder st mq full ops (issueStep o m s) := issueOrder_inOrder h

theorem completeStep_inOrder {x : Step} (h : InOrder st mq full ops s) : InOrder st mq full ops (completeStep x s) := by
  unfold completeStep
  split <;> exact h

theorem lowerReadGate_inOrder (h : InOrder st mq full ops s) : InOrder st mq full ops (lowerReadGate s) := ite_inOrder h h

theorem lowerWriteGate_inOrder (h : InOrder st mq full ops s) : InOrder st mq full ops (lowerWriteGate s) :=
  ite_inOrder h h

theorem setHolder_inOrder {x : Holder} (h : InOrder st mq full ops s) : InOrder st mq full ops (setHolder x s) := by
  have hx : InOrder st mq full ops (if s.drv.holder.isDevice && !x.isDevice && restDue s then markResting s else s) :=
    ite_inOrder h h
  exact hx

theorem abandonCapture_inOrder (h : InOrder st mq full ops s) : InOrder st mq full ops (abandonCapture s) := by
  unfold abandonCapture
  split
  · exact ite_inOrder h (lowerReadGate_inOrder h)
  · exact h

theorem dropWork_inOrder (h : InOrder st mq full ops s) : InOrder st mq full ops (dropWork s) :=
  abandonCapture_inOrder h.noTravel

theorem giveUp_inOrder (h : InOrder st mq full ops s) : InOrder st mq full ops (giveUp s) :=
  have hd := dropWork_inOrder h
  ite_inOrder (ite_inOrder (ite_inOrder hd hd) (setHolder_inOrder hd)) h

theorem standDown_inOrder (h : InOrder st mq full ops s) : InOrder st mq full ops (standDown s) :=
  h.samePlaces (places_standDown _)

theorem interruptSweep_inOrder (h : InOrder st mq full ops s) : InOrder st mq full ops (interruptSweep s) :=
  ite_inOrder h h

theorem takeDrive_inOrder (h : InOrder st mq full ops s) : InOrder st mq full ops (takeDrive s) :=
  have hd : InOrder st mq full ops (dropWork (interruptSweep (standDown { s with drv.quietDue := none }))) :=
    dropWork_inOrder (interruptSweep_inOrder (standDown_inOrder h))
  ite_inOrder (ite_inOrder hd (setHolder_inOrder hd)) (setHolder_inOrder h)

/-- The end of a controller use sets the quiet interval at most (R131). -/
theorem endUse_changes_quiet (s : State) : ∃ x, endUse s = { s with drv.quietDue := x } := by
  unfold endUse
  split
  · exact ⟨_, rfl⟩
  · exact ⟨s.drv.quietDue, rfl⟩

theorem endUse_inOrder (h : InOrder st mq full ops s) : InOrder st mq full ops (endUse s) := ite_inOrder h h

theorem changeHead_inOrder {i : Nat} {f : HeadRecord → HeadRecord} (h : InOrder st mq full ops s) :
    InOrder st mq full ops (changeHead i f s) := by
  obtain ⟨hs, l, e⟩ := changeHead_changes i f s
  rw [e]
  exact h

theorem noticeSweep_inOrder (h : InOrder st mq full ops s) : InOrder st mq full ops (noticeSweep s) := by
  obtain ⟨x, c, e⟩ := noticeSweep_changes s
  rw [e]
  exact h

/-! ### Votes and the queue -/

theorem handVote_inOrder {i : VoteInputs} (h : InOrder st mq full ops s) : InOrder st mq full ops (handVote a i s) := by
  unfold handVote
  split <;> exact h

theorem nextVote_inOrder (h : InOrder st mq full ops s) : InOrder st mq full ops (nextVote s) := by
  unfold nextVote
  split <;> exact h

/-- A job's record changed without its sector or class. -/
theorem updateJob_inOrder {f : Job → Job} (hf : ∀ j, (f j).addr = j.addr ∧ (f j).cls = j.cls)
    (h : InOrder st mq full ops s) : InOrder st mq full ops (updateJob a f s) := by
  refine h.samePlaces (places_map (fun j => ?_) _)
  split
  · exact hf j
  · exact ⟨rfl, rfl⟩

theorem leaveHead_inOrder {j : Job} (h : InOrder st mq full ops s) : InOrder st mq full ops (leaveHead j s) := by
  let t := emptyHeadWork (updateJob j.addr (fun j => { j with state := .waiting, readsDone := 0 }) s)
  have hu : InOrder st mq full ops t :=
    updateJob_inOrder (f := fun j => { j with state := .waiting, readsDone := 0 }) (fun _ => ⟨rfl, rfl⟩) h
  have hm : InOrder st mq full ops (if j.state = .voting then markDiscard j.addr t else t) := ite_inOrder hu hu
  exact ite_inOrder (giveUp_inOrder hm) hm

/-- A change of the queue that is in order leaves the state in order, whatever becomes of the head (R70). -/
theorem reorder_inOrder {f : List Job → List Job} (h : InOrder st mq full ops { s with seq.queue := f s.seq.queue }) :
    InOrder st mq full ops (reorder f s) := by
  unfold reorder
  dsimp only
  split
  · exact h
  · exact ite_inOrder h (leaveHead_inOrder h)

theorem reorder_regroups {f : List Job → List Job} (hf : Regroups f) (h : InOrder st mq full ops s) :
    InOrder st mq full ops (reorder f s) := reorder_inOrder (h.regroup hf)

/-- The state with a sector's job taken out of the queue. -/
abbrev unqueued (a : Addr) (s : State) : State := { s with seq.queue := withoutJob a s.seq.queue }

theorem removeJob_inOrder (h : InOrder st mq full ops (unqueued a s)) : InOrder st mq full ops (removeJob a s) :=
  noticeSweep_inOrder (reorder_inOrder h)

theorem cancelJob_inOrder (h : InOrder st mq full ops (unqueued a s)) : InOrder st mq full ops (cancelJob a s) := by
  unfold cancelJob
  split
  · exact removeJob_inOrder (s := markDiscard a s) h
  next hnone =>
    have hleft : withoutJob a s.seq.queue = s.seq.queue :=
      withoutJob_of_not_mem fun j hj => by simpa using List.find?_eq_none.1 hnone j hj
    exact h.samePlaces (congrArg places hleft).symm

/-! ### A sector settled -/

theorem passClaimSlot_eq (a : Addr) (s : State) :
    passClaimSlot a s = { s with map.claim := passedClaim a s.map.claim } := by
  cases hc : s.map.claim with
  | none =>
    simp only [passClaimSlot, passedClaim, hc, Option.map_none]
    rw [← hc]
  | some c =>
    simp only [passClaimSlot, passedClaim, hc, Option.map_some]
    split
    · rfl
    · rw [← hc]

/-- An image goes into the slot found for its sector, and the sector's claim passes its slot on (R40, R43). -/
theorem settleInNewSlot_eq (a : Addr) (kind : Settled) (f : Field) (n : Nat) (w : Option Nat) (s : State) :
    settleInNewSlot a kind f n w s = { s with
      map.entries := withBody a (.settled kind n w (slotFor s a)) s.map.entries
      map.store := putSlot (slotFor s a) (packImage s.straps.bits f) s.map.store
      map.claim := passedClaim a s.map.claim } := by
  simp only [settleInNewSlot, passClaimSlot_eq]
  rfl

/-- A PENDING sector settled, and its job taken out of the queue: the two go together (R46, R47, R60). -/
theorem settled_inOrder {kind : Settled} {f : Field} {n : Nat} {w : Option Nat} (h : InOrder st mq full ops s)
    (hp : mq → ∃ e, findEntry s.map.entries a = some e ∧ e.body = .pending) :
    InOrder st mq full ops (unqueued a (settleInNewSlot a kind f n w s)) := by
  rw [settleInNewSlot_eq]
  have hfits := fun hf : full => fits_settled (kind := kind) (n := n) (w := w) (h.map (h.ordered hf)) (h.room hf) (h.claim hf)
    (hp (h.ordered hf)).choose_spec.1 (hp (h.ordered hf)).choose_spec.2
  exact {
    within := h.within
    ordered := h.ordered
    store := fun hst => putSlot_wf (h.store hst)
    map := fun hm => ascending_withBody (h.map hm)
    queue := fun hm => ((h.queue hm).without a).1
    jobs := fun hm x => (((h.queue hm).without a).2 x).trans
      ((and_congr_right fun _ => h.jobs hm x).trans (pending_settled (by simp) x).symm)
    room := fun hf => (hfits hf).1
    claim := fun hf => (hfits hf).2
    ops := fun ho => (h.ops ho).passed a }

/-- A settled sector's new image in its own slot (R40, R48). -/
theorem settleInOwnSlot_inOrder {kind old : Settled} {f : Field} {n n' k : Nat} {w w' : Option Nat} {e : Entry}
    (h : InOrder st mq full ops s) (he : entryOf s a = some e) (hb : e.body = .settled old n' w' k) :
    InOrder st mq full ops (settleInOwnSlot a kind f n w k s) := by
  have hbody : e.body ≠ .pending := by simp [hb]
  have hfits := fun hf : full => fits_rewritten (b := .settled kind n w k) (h.map (h.ordered hf)) (h.room hf) (h.claim hf) he
    (by rw [hb]; rfl) (by simp) hbody
  exact {
    within := h.within
    ordered := h.ordered
    store := fun hst => putSlot_wf (h.store hst)
    map := fun hm => ascending_withBody (h.map hm)
    queue := h.queue
    jobs := fun hm x => by
      refine (h.jobs hm x).trans (.trans ?_ (pending_settled (by simp) x).symm)
      refine ⟨fun hx => ⟨fun hxa => ?_, hx⟩, And.right⟩
      obtain ⟨y, hy, hpend⟩ := (pending_iff (h.map hm)).1 hx
      rw [hxa] at hy
      obtain rfl := Option.some.inj (hy.symm.trans he)
      exact hbody hpend
    room := fun hf => (hfits hf).1
    claim := fun hf => (hfits hf).2
    ops := h.ops }

/-- A job's sector is PENDING (R60). -/
theorem pending_of_jobOf {j : Job} (h : InOrder st mq full ops s) (hj : jobOf s a = some j) (hm : mq) :
    ∃ e, findEntry s.map.entries a = some e ∧ e.body = .pending := by
  refine (pending_iff (h.map hm)).1 ((h.jobs hm a).1 ?_)
  rw [show (places s.seq.queue).map Prod.fst = _ from sectors_eq _]
  exact List.mem_map.2 ⟨j, List.mem_of_find?_eq_some hj, addr_of_jobOf hj⟩

/-! ### Operations and withholding -/

/-- An operation that begins where there was none, with nothing standing for it yet. -/
theorem OpsFit.begins {c : Option Claim} {w : Bool} {p : Option Purpose} {o : Op} (h : OpsFit c none w p) (ho : OpFits o)
    (ht : ¬InTransfer o) (hk : o.kind ≠ .withheld) : OpsFit c (some o) w p := by
  obtain rfl := h.unclaimed nofun
  refine opsFit_some ho ht (by simpa [hk] using h.withheld) fun x hx hr => ?_
  obtain ⟨o', ho', -⟩ := h.reseats x hx hr
  cases ho'

/-- A withholding that begins where there was no operation (R36). -/
theorem OpsFit.withholds {c : Option Claim} {w : Bool} {p : Option Purpose} (h : OpsFit c none w p) (a : Addr) :
    OpsFit c (some (newOp .withheld a .awaitingDrive)) true p := by
  obtain rfl := h.unclaimed nofun
  refine opsFit_some (opFits_newOp _ _ _ fun _ => .inl rfl) (by simp [newOp]) (by simp [newOp]) fun x hx hr => ?_
  obtain ⟨o', ho', -⟩ := h.reseats x hx hr
  cases ho'

theorem opFits_served {kind : OpKind} {t : Nat} (hk : kind ≠ .liveRead ∧ kind ≠ .liveWrite ∧ kind ≠ .withheld) :
    OpFits { newOp kind a .awaitingMatch with matchDue := some t } :=
  ⟨fun _ => ⟨rfl, hk⟩, nofun, nofun, fun h => absurd h hk.2.2⟩

theorem opFits_live {kind : OpKind} (hk : kind = .liveRead ∨ kind = .liveWrite) :
    OpFits (newOp kind a .awaitingDrive) :=
  opFits_newOp _ _ _ fun h => by rcases hk with rfl | rfl <;> cases h

/-- A dropped re-seat leaves at most a device party's positioning. -/
theorem dropReseat_leaves (s : State) :
    ∃ t, dropReseat s = { s with drv.travel := t } ∧ ∀ x, t.map Travel.purpose = some x → ¬Reseats x := by
  cases ht : s.drv.travel with
  | none =>
    refine ⟨none, ?_, nofun⟩
    simp only [dropReseat, ht]
    rw [← ht]
  | some t =>
    by_cases hr : Reseats t.purpose
    · exact ⟨none, by simp only [dropReseat, ht, if_pos hr], nofun⟩
    · refine ⟨some t, ?_, fun x hx => Option.some.inj hx ▸ hr⟩
      simp only [dropReseat, ht, if_neg hr]
      rw [← ht]

/-- A withholding ended and its re-seat dropped: nothing stands for the operation that follows (R37, R122). -/
theorem withholdEnds {k : EndKind} (h : InOrder st mq full ops s) (hw : s.ctl.withhold.isSome = true) :
    ∃ r t, dropReseat (closeWithhold k s) =
        { s with ctl.withhold := none, ctl.report := r, drv.travel := t } ∧
      Coherent st mq full ops s.map.entries s.map.store s.map.claim (places s.seq.queue) none false
        (t.map Travel.purpose) := by
  obtain ⟨w, hw'⟩ := Option.isSome_iff_exists.1 hw
  obtain ⟨t, hdrop, hseat⟩ := dropReseat_leaves (closeWithhold k s)
  refine ⟨_, t, hdrop.trans (by rw [closeWithhold_eq hw']), h.reop fun ho => ?_⟩
  rw [hw] at ho
  obtain ⟨o, hop, hk⟩ := ho.withheld_op
  have hnone := ho.unclaimed fun x hx ht => by
    obtain rfl := Option.some.inj (hop.symm.trans hx)
    exact absurd (hk.symm.trans ht.1) (by simp)
  rw [hnone]
  exact opsFit_none hseat

theorem withholdServed_inOrder (h : InOrder st mq full ops s) (hw : s.ctl.withhold.isSome = true) :
    InOrder st mq full ops (withholdServed a s) := by
  obtain ⟨r, t, hends, hnone⟩ := withholdEnds (k := .recovered) h hw
  obtain ⟨x, hquiet⟩ := endUse_changes_quiet (dropReseat (closeWithhold .recovered s))
  rw [withholdServed, hquiet, hends]
  exact hnone.reop fun ho => ho.begins (opFits_served (by simp)) (by simp [newOp]) (by simp [newOp])

/-- A live operation that asks for the drive, or ends at once where the drive is LOST (R32). -/
theorem beginLive_inOrder {kind : OpKind} (hk : kind = .liveRead ∨ kind = .liveWrite)
    (h : InOrder st mq full ops { s with ctl.op := none }) : InOrder st mq full ops (beginLive kind a s) := by
  refine ite_inOrder h (takeDrive_inOrder (h.reop fun ho => ho.begins (opFits_live hk) (fun ht => ?_) fun hw => ?_))
  · cases ht.2.1
  · rcases hk with rfl | rfl <;> cases hw

theorem withholdLive_inOrder {k : EndKind} (h : InOrder st mq full ops s) (hw : s.ctl.withhold.isSome = true) :
    InOrder st mq full ops (withholdLive k a s) := by
  obtain ⟨r, t, hends, hnone⟩ := withholdEnds (k := k) h hw
  rw [withholdLive, hends]
  exact beginLive_inOrder (.inl rfl) hnone

theorem giveUp_ctl (s : State) : (giveUp s).ctl = s.ctl := by
  obtain ⟨d, h | h⟩ := giveUp_changes s <;> rw [h]

theorem demoteJob_ctl (a : Addr) (s : State) : (demoteJob a s).ctl = s.ctl := by
  obtain ⟨q, e, d, o, h⟩ := reorder_changes (demoted a) s
  simp only [demoteJob, h]
  split
  · split
    · exact giveUp_ctl _
    · rfl
  · rfl

theorem demoteJob_inOrder (h : InOrder st mq full ops s) : InOrder st mq full ops (demoteJob a s) := by
  have hr : InOrder st mq full ops (reorder (demoted a) s) := reorder_regroups (regroups_demoted a) h
  unfold demoteJob
  dsimp only
  split
  · exact ite_inOrder (giveUp_inOrder (standDown_inOrder hr)) hr
  · exact hr

theorem endWithholdDemoting_inOrder {k : EndKind} (h : InOrder st mq full ops s) :
    InOrder st mq full ops (endWithholdDemoting k s) := by
  unfold endWithholdDemoting
  split
  · exact h
  next w hw => exact withholdLive_inOrder (demoteJob_inOrder h) (by rw [demoteJob_ctl, hw]; rfl)

theorem withhold_of_isWithheld (h : isWithheld s a = true) : s.ctl.withhold.isSome = true := by
  unfold isWithheld at h
  split at h
  next hw => rw [hw]; rfl
  · cases h

/-! ### The ends of jobs, and rungs -/

theorem endRecovered_inOrder {m : Method} {f : Field} (h : InOrder st mq full ops s) :
    InOrder st mq full ops (endRecovered a m f s) := by
  unfold endRecovered
  split
  · exact h
  next j hj =>
    have hsettled : InOrder st mq full ops
        (removeJob a (noticeRecovered a.head m j.readsSpent (mapRecovered a m f j.readsSpent j.lastWeak s))) := by
      obtain ⟨hs, l, hnotice⟩ := changeHead_changes a.head
        (fun r => { r with
          score := r.score - (min j.readsSpent 15 + surcharge m), recoveries := countUp r.recoveries })
        (mapRecovered a m f j.readsSpent j.lastWeak s)
      rw [noticeRecovered, hnotice]
      exact removeJob_inOrder (settled_inOrder h (pending_of_jobOf h hj))
    dsimp only
    split
    next hw => exact withholdServed_inOrder hsettled (withhold_of_isWithheld hw)
    next => exact hsettled

theorem endLost_inOrder {k : LostKind} (h : InOrder st mq full ops s) : InOrder st mq full ops (endLost a k s) := by
  unfold endLost
  split
  · exact h
  next j hj =>
    have hsettled : ∀ image, InOrder st mq full ops (removeJob a (noticeLost a.head
        (logIncident (.jobLost k a j.ladder j.rungIndex j.readsSpent j.lastWeak)
          (mapLost a image j.readsSpent j.lastWeak s)))) := by
      intro image
      obtain ⟨hs, l, hnotice⟩ := changeHead_changes a.head
        (fun r => { r with score := r.score - 24, losses := countUp r.losses })
        (logIncident (.jobLost k a j.ladder j.rungIndex j.readsSpent j.lastWeak)
          (mapLost a image j.readsSpent j.lastWeak s))
      rw [noticeLost, hnotice]
      exact removeJob_inOrder (settled_inOrder h (pending_of_jobOf h hj))
    generalize (if (headJob s).map Job.addr = some a then bestImage s else none) = image
    dsimp only
    split
    next hw => exact withholdLive_inOrder (hsettled _) (withhold_of_isWithheld hw)
    next => exact hsettled _

theorem arriveRung_inOrder (h : InOrder st mq full ops s) : InOrder st mq full ops (arriveRung a s) := by
  unfold arriveRung
  split
  · exact h
  next j _ =>
    have hu : ∀ i, InOrder st mq full ops
        (if i = j.rungIndex then s else updateJob a (fun j => { j with rungIndex := i, readsDone := 0 }) s) :=
      fun i => ite_inOrder h (updateJob_inOrder (fun _ => ⟨rfl, rfl⟩) h)
    exact ite_inOrder (endLost_inOrder (hu _)) (hu _)

theorem startRung_inOrder (h : InOrder st mq full ops s) : InOrder st mq full ops (startRung a s) := by
  have hr : InOrder st mq full ops (arriveRung a s) := arriveRung_inOrder h
  unfold startRung
  dsimp only
  split
  · exact hr
  · exact ite_inOrder hr hr

theorem goToRung_inOrder (h : InOrder st mq full ops s) : InOrder st mq full ops (goToRung s) := by
  unfold goToRung
  split
  · exact ite_inOrder (h.deviceTravel (x := .rung) (by simp)) h
  · exact h

theorem failRung_inOrder {f : OnFailure} (h : InOrder st mq full ops s) : InOrder st mq full ops (failRung a f s) := by
  unfold failRung
  split
  · exact h
  · split
    · exact endLost_inOrder h
    · have hs := fun i x => startRung_inOrder (a := a) (updateJob_inOrder (a := a)
        (f := fun j => { j with rungIndex := i, readsDone := 0, state := x }) (fun _ => ⟨rfl, rfl⟩) h)
      exact ite_inOrder (goToRung_inOrder (hs _ _)) (hs _ _)

theorem endRung_inOrder {r : Rung} (h : InOrder st mq full ops s) : InOrder st mq full ops (endRung a r s) := by
  unfold endRung
  split
  · split
    · exact h
    · exact handVote_inOrder (updateJob_inOrder (fun _ => ⟨rfl, rfl⟩) h)
  · exact failRung_inOrder h

theorem chargeRead_inOrder (h : InOrder st mq full ops s) : InOrder st mq full ops (chargeRead a s) := by
  have hu := updateJob_inOrder (a := a)
    (f := fun j => { j with readsSpent := j.readsSpent + 1, readsDone := j.readsDone + 1 }) (fun _ => ⟨rfl, rfl⟩) h
  unfold chargeRead
  dsimp only
  split
  · exact ite_inOrder (endRung_inOrder hu) hu
  · exact hu

/-! ### Admission -/

/-- The state with a job in its place in the queue. -/
abbrev joined (j : Job) (s : State) : State := { s with seq.queue := joinGroup j s.seq.queue }

theorem enqueueJob_inOrder {j : Job} (h : InOrder st mq full ops (joined j s)) :
    InOrder st mq full ops (enqueueJob j s) := startRung_inOrder (reorder_inOrder h)

/-- A request that is met for a sector without entry and claim finds room in the map and the queue (R45). -/
theorem room_of_met (hmet : refusalOf s a = none) (he : entryOf s a = none) (hc : s.map.claim.map Claim.addr ≠ some a) :
    s.map.entries.length + (s.map.claim.any Claim.entry).toNat < 1024 ∧ s.seq.queue.length < 32 := by
  have hentries : entriesClaimed s = (s.map.claim.any Claim.entry).toNat := by
    unfold entriesClaimed
    cases s.map.claim with
    | none => rfl
    | some c => cases h : c.entry <;> simp [h]
  unfold refusalOf at hmet
  rw [if_neg (by simp [he, hc])] at hmet
  split at hmet
  · cases hmet
  next hfree =>
    split at hmet
    · cases hmet
    next hroom =>
      simp only [freeEntries, hentries, Config.capacity, Config.queueRoom] at hfree hroom
      omega

/-- A sector without an entry has no job (R60). -/
theorem not_queued_of_entryOf (h : InOrder st mq full ops s) (hm : mq) (he : entryOf s a = none) :
    a ∉ sectors s.seq.queue := fun ha => by
  obtain ⟨e, hmem, haddr, -⟩ := (h.jobs hm a).1 ha
  exact findEntry_eq_none.1 he e hmem haddr

/-- An entry and its job, created in one act (R45, R62). -/
theorem admitSector_inOrder {cls : JobClass} {org : Origin} (h : InOrder st mq full ops s)
    (hmet : refusalOf s a = none) : InOrder st mq full ops (admitSector a cls org s) := by
  unfold admitSector
  split
  · exact h
  next hnew =>
    rw [not_or, Option.not_isSome_iff_eq_none] at hnew
    obtain ⟨he, hc⟩ := hnew
    obtain ⟨hentries, hqueue⟩ := room_of_met hmet he hc
    have hother : ∀ k, s.map.claim = some k → k.addr ≠ a := fun k hk ha => hc (by rw [hk, Option.map_some, ha])
    have hfits := fun hf : full => fits_added (org := org) (h.room hf) (h.claim hf) he hentries hother
    have hjoin := fun hm : mq => (h.queue hm).join (j := newJob s a cls org) (not_queued_of_entryOf h hm he) hqueue
    exact enqueueJob_inOrder {
      within := h.within
      ordered := h.ordered
      store := h.store
      map := fun hm => ascending_insertEntry (h.map hm) he
      queue := fun hm => (hjoin hm).1
      jobs := fun hm x => by
        refine ((hjoin hm).2 x).trans ?_
        constructor
        · rintro (rfl | hx)
          · exact ⟨_, mem_insertEntry.2 (.inl rfl), rfl, rfl⟩
          · obtain ⟨e, hmem, haddr, hb⟩ := (h.jobs hm x).1 hx
            exact ⟨e, mem_insertEntry.2 (.inr hmem), haddr, hb⟩
        · rintro ⟨e, hmem, rfl, hb⟩
          rcases mem_insertEntry.1 hmem with rfl | hmem
          · exact .inl rfl
          · exact .inr ((h.jobs hm _).2 ⟨e, hmem, rfl, hb⟩)
      room := fun hf => (hfits hf).1
      claim := fun hf => (hfits hf).2
      ops := h.ops }

theorem requestJob_inOrder {cls : JobClass} {org : Origin} (h : InOrder st mq full ops s) :
    InOrder st mq full ops (requestJob a cls org s) := by
  unfold requestJob
  split
  · exact h
  next hmet => exact admitSector_inOrder h hmet

/-! ### Episodes and grants -/

theorem startEpisode_inOrder (h : InOrder st mq full ops s) : InOrder st mq full ops (startEpisode s) :=
  issueOrder_inOrder (s := { abandonCapture s with drv.step := none, drv.episode := _ }) (abandonCapture_inOrder h)

theorem jobPositionFailure_inOrder (h : InOrder st mq full ops s) :
    InOrder st mq full ops (jobPositionFailure a s) := by
  have hu := giveUp_inOrder (s := emptyHeadWork (updateJob a
    (fun j => { j with positionFailures := 1, readsDone := 0, state := .waiting }) s))
    (updateJob_inOrder (f := fun j => { j with positionFailures := 1, readsDone := 0, state := .waiting })
      (fun _ => ⟨rfl, rfl⟩) h)
  unfold jobPositionFailure
  split
  · exact h
  · split
    · dsimp only
      split
      next hw =>
        refine withholdLive_inOrder (reorder_regroups (regroups_demoted a) hu) ?_
        obtain ⟨q, e, d, o, hr⟩ := reorder_changes (demoted a) (giveUp (emptyHeadWork (updateJob a
          (fun j => { j with positionFailures := 1, readsDone := 0, state := .waiting }) s)))
        rw [hr]
        exact withhold_of_isWithheld hw
      next => exact reorder_regroups (regroups_sentToTail a) hu
    · exact endLost_inOrder h

theorem takeUpRung_inOrder (h : InOrder st mq full ops s) : InOrder st mq full ops (takeUpRung a s) := by
  unfold takeUpRung
  split
  · exact ite_inOrder (endRung_inOrder h) (goToRung_inOrder h)
  · exact h

theorem grantHead_inOrder (h : InOrder st mq full ops s) : InOrder st mq full ops (grantHead s) := by
  unfold grantHead
  split
  · exact h
  next j _ =>
    have ht : InOrder st mq full ops (takeUpRung j.addr (startRung j.addr
        (updateJob j.addr (fun j => { j with state := .active }) (setHolder .recovery s)))) :=
      takeUpRung_inOrder (startRung_inOrder (updateJob_inOrder (fun _ => ⟨rfl, rfl⟩) (setHolder_inOrder h)))
    exact ite_inOrder (startEpisode_inOrder ht) ht

/-- The handover comes when the re-seat of a withheld operation is complete (R36, R135). -/
theorem handOver_inOrder (h : InOrder st mq full ops s)
    (hp : s.drv.travel.map Travel.purpose = some .reseatWithhold) : InOrder st mq full ops (handOver s) := by
  have ho : InOrder st mq full ops { s with
      drv.travel := none
      drv.quietDue := none
      ctl.op := s.ctl.op.map fun o => { o with phase := .awaitingMatch } } := by
    refine h.reop fun hfit => ?_
    obtain ⟨o, hop, hphase, -, hkind⟩ := hfit.reseats _ hp (.inr rfl)
    have hk := hkind rfl
    have heach := hfit.each o hop
    have hnone : s.map.claim = none := hfit.unclaimed fun x hx ht => by
      obtain rfl := Option.some.inj (hop.symm.trans hx)
      exact absurd (hk.symm.trans ht.1) (by simp)
    have hw : s.ctl.withhold.isSome = true := hfit.withheld.2 (by rw [hop, Option.map_some, hk])
    rw [hop, Option.map_some, hnone]
    refine opsFit_some ⟨fun hd => ?_, fun hd => ?_, fun hd => ?_, fun _ => .inr rfl⟩ (by simp) (by simp [hw, hk]) nofun
    · exact absurd hk (heach.due hd).2.2.2
    · exact absurd (heach.ended hd) (by simp [hphase])
    · exact absurd ((heach.refused hd).1.symm.trans hk) (by simp)
  unfold handOver
  dsimp only
  split
  · exact ite_inOrder (ite_inOrder (startEpisode_inOrder (setHolder_inOrder ho)) (setHolder_inOrder ho))
      (grantHead_inOrder ho)
  · exact ho

/-! ### The sweep -/

theorem grantSweep_inOrder (h : InOrder st mq full ops s) : InOrder st mq full ops (grantSweep s) :=
  have hs : InOrder st mq full ops (setHolder .sweep s) := setHolder_inOrder h
  have ht := hs.deviceTravel (x := .sweep) (by simp)
  ite_inOrder (giveUp_inOrder hs) (ite_inOrder (startEpisode_inOrder ht) ht)

theorem leaveTrack_inOrder (h : InOrder st mq full ops s) : InOrder st mq full ops (leaveTrack s) := giveUp_inOrder h

theorem endTrack_inOrder (h : InOrder st mq full ops s) : InOrder st mq full ops (endTrack s) :=
  ite_inOrder (giveUp_inOrder h) (ite_inOrder (giveUp_inOrder h) (leaveTrack_inOrder h))

theorem runSweep_inOrder (h : InOrder st mq full ops s) : InOrder st mq full ops (runSweep s) := by
  unfold runSweep
  split
  · exact endTrack_inOrder h
  · exact issueOrder_inOrder h

theorem afterSweepCapture_inOrder (h : InOrder st mq full ops s) : InOrder st mq full ops (afterSweepCapture s) :=
  ite_inOrder (endTrack_inOrder h) h

theorem sweepRequest_inOrder (h : InOrder st mq full ops s) : InOrder st mq full ops (sweepRequest a s) := by
  unfold sweepRequest
  refine ite_inOrder h ?_
  split
  · exact h
  next hmet => exact admitSector_inOrder h hmet

/-! ### Positioning and the acts of settling -/

section
variable {t : Travel} (ht : s.drv.travel.map Travel.purpose = some t.purpose)
include ht

/-- A positioning that goes on is made for what it was made for. -/
theorem Coherent.onward {t' : Travel} (h : InOrder st mq full ops s) (hp : t'.purpose = t.purpose) :
    InOrder st mq full ops { s with drv.travel := some t' } := by
  have h' := h
  rw [InOrder, ht, ← hp] at h'
  exact h'

theorem travelStep_inOrder {o : Order} {m : Move} (h : InOrder st mq full ops s) :
    InOrder st mq full ops (travelStep o m t s) := by
  have hg := Coherent.onward (t' := { t with stepped := true }) ht h rfl
  unfold travelStep
  split
  · exact issueStep_inOrder hg
  · exact issueStep_inOrder hg

/-- A live target is issued for the operation that awaited the drive (R32). -/
theorem issueTarget_inOrder (h : InOrder st mq full ops s) (hp : t.purpose = .reseatLive) :
    InOrder st mq full ops (issueTarget s) := by
  unfold issueTarget
  split
  · exact h.noTravel
  next o hop =>
    have ho : InOrder st mq full ops { s with drv.travel := none, ctl.op := some { o with phase := .awaitingMatch } } := by
      refine h.reop fun hfit => ?_
      obtain ⟨o', hop', hphase, hkind, -⟩ := hfit.reseats _ ht (.inl hp)
      obtain rfl := Option.some.inj (hop.symm.trans hop')
      have hk := hkind hp
      have heach := hfit.each o hop
      rw [hop] at hfit
      have hheld : o.kind ≠ .withheld := by rcases hk with hk | hk <;> simp [hk]
      rw [hfit.unclaimed_of_phase (by simp [hphase]), hfit.not_withheld hheld]
      refine opsFit_some ⟨fun hd => ?_, fun hd => ?_, fun hd => ?_, fun _ => .inr rfl⟩ (by simp) (by simp [hheld]) nofun
      · exact ⟨rfl, (heach.due hd).2⟩
      · exact absurd (heach.ended hd) (by simp [hphase])
      · exact absurd (heach.refused hd).2 (by simp [hphase])
    dsimp only
    split
    · exact issueOrder_inOrder ho
    · exact issueOrder_inOrder ho
    · exact ho

theorem arrive_inOrder (h : InOrder st mq full ops s) : InOrder st mq full ops (arrive t s) := by
  unfold arrive
  split
  next hp => exact issueTarget_inOrder ht h hp
  next hp => exact handOver_inOrder h (ht.trans (congrArg some hp))
  · exact h.noTravel
  · exact h.noTravel

theorem makeMove_inOrder (h : InOrder st mq full ops s) : InOrder st mq full ops (makeMove t s) := by
  unfold makeMove
  split
  · split
    · exact Coherent.onward ht h rfl
    · exact arrive_inOrder ht h
  next m ms _ =>
    have hg := Coherent.onward (t' := { t with moves := ms }) ht h rfl
    have hstep : ∀ {o m}, InOrder st mq full ops
        (travelStep o m { t with moves := ms } { s with drv.travel := some { t with moves := ms } }) :=
      travelStep_inOrder (t := { t with moves := ms }) rfl hg
    dsimp only
    split
    · exact ite_inOrder (issueOrder_inOrder hg) hg
    · exact hstep
    · exact hstep
    · exact ite_inOrder hg hstep
    · exact ite_inOrder hg (issueOrder_inOrder hg)
    · exact hg
    · exact ite_inOrder hg (ite_inOrder hstep (issueOrder_inOrder hg))

/-- A failed re-seat ends the operation it was made for, with its withholding (R123). -/
theorem reseatFails_inOrder (h : InOrder st mq full ops s) (hr : Reseats t.purpose) :
    InOrder st mq full ops { closeWithhold .reseatFailed s with
      drv.travel := none
      ctl.op := none
      ctl.shownPositionError := true
      ctl.shownOnCylinder := false
      ctl.seekFailed := true } := by
  have hclosed : ∃ r, closeWithhold .reseatFailed s = { s with ctl.withhold := none, ctl.report := r } := by
    unfold closeWithhold
    split
    next hw => exact ⟨s.ctl.report, by rw [← hw]⟩
    · exact ⟨_, rfl⟩
  obtain ⟨r, hclosed⟩ := hclosed
  rw [hclosed]
  refine h.reop fun hfit => ?_
  obtain ⟨o, hop, hphase, -⟩ := hfit.reseats _ ht hr
  rw [hop] at hfit
  rw [hfit.unclaimed_of_phase (by simp [hphase])]
  exact opsFit_none nofun

theorem travelFails_inOrder {m : Move} (h : InOrder st mq full ops s) : InOrder st mq full ops (travelFails m t s) := by
  unfold travelFails
  split
  next hp => exact endUse_inOrder (reseatFails_inOrder ht h (.inl hp))
  next hp => exact endUse_inOrder (reseatFails_inOrder ht h (.inr hp))
  all_goals
    split
    · exact ite_inOrder h (Coherent.onward ht h rfl)
    · refine ite_inOrder (leaveTrack_inOrder h.noTravel) ?_
      split
      · exact jobPositionFailure_inOrder h.noTravel
      · exact h

end

theorem readSector_inOrder {j : Job} (h : InOrder st mq full ops s) : InOrder st mq full ops (readSector j s) :=
  ite_inOrder (endLost_inOrder h) (issueOrder_inOrder h)

theorem runJob_inOrder (h : InOrder st mq full ops s) : InOrder st mq full ops (runJob s) := by
  unfold runJob
  split
  · exact ite_inOrder (endRung_inOrder h) (readSector_inOrder h)
  · exact h

theorem beginRest_inOrder (h : InOrder st mq full ops s) : InOrder st mq full ops (beginRest s) :=
  have hm : InOrder st mq full ops (markResting s) := h
  endWithholdDemoting_inOrder (ite_inOrder (giveUp_inOrder (interruptSweep_inOrder (standDown_inOrder hm))) hm)

theorem relayOrder_inOrder (h : InOrder st mq full ops s) : InOrder st mq full ops (relayOrder s) := by
  unfold relayOrder
  split
  · exact h
  · exact ite_inOrder (issueStep_inOrder h) (endUse_inOrder (issueOrder_inOrder h))

theorem passDrive_inOrder (h : InOrder st mq full ops s) : InOrder st mq full ops (passDrive s) := by
  unfold passDrive
  split
  · exact h
  · exact setHolder_inOrder h
  · exact setHolder_inOrder h

/-- A re-seat is due only to an operation that awaits the drive (R32, R36, R122). -/
theorem awaitsDrive_of_reseat (h : nextAct s = some .reseat) : awaitsDrive s = true := by
  unfold nextAct at h
  repeat' split at h
  all_goals try cases h
  unfold holderAct at h
  repeat' split at h
  all_goals try cases h
  assumption

theorem reseat_inOrder (h : InOrder st mq full ops s) (ha : awaitsDrive s = true) :
    InOrder st mq full ops { s with drv.travel := some (reseatTravel s), drv.quietDue := none } := by
  refine h.reop fun hfit => { hfit with reseats := fun x hx _ => ?_ }
  unfold awaitsDrive at ha
  split at ha
  next o hop =>
    obtain ⟨hphase, hk⟩ := decide_eq_true_eq.mp ha
    have hx' : (if s.ctl.withhold.isSome then Purpose.reseatWithhold else .reseatLive) = x := Option.some.inj hx
    have hw := hfit.withheld
    rw [hop, Option.map_some, Option.some.injEq] at hw
    refine ⟨o, hop, hphase, fun hlive => ?_, fun hheld => hw.1 ?_⟩
    · have hno : o.kind ≠ .withheld := fun hk' => by
        rw [if_pos (hw.2 hk')] at hx'
        rw [hlive] at hx'
        cases hx'
      rcases hk with hk | hk | hk
      · exact .inl hk
      · exact .inr hk
      · exact absurd hk hno
    · by_contra hnone
      rw [if_neg hnone, hheld] at hx'
      cases hx'
  · cases ha

theorem doAct_inOrder {x : Act} (hdue : nextAct s = some x) (h : InOrder st mq full ops s) :
    InOrder st mq full ops (doAct x s) := by
  cases x
  case pass => exact passDrive_inOrder h
  case restMeetsWithhold | limitEnds => exact endWithholdDemoting_inOrder h
  case restBegins => exact beginRest_inOrder h
  case sweepYields => exact giveUp_inOrder (interruptSweep_inOrder h)
  case relay => exact relayOrder_inOrder h
  case reseat => exact reseat_inOrder h (awaitsDrive_of_reseat hdue)
  case move =>
    dsimp only [doAct]
    split
    next ht => exact makeMove_inOrder (by rw [ht, Option.map_some]) h
    · exact h
  case job => exact runJob_inOrder h
  case sweepTarget => exact runSweep_inOrder h
  case grantRecovery => exact grantHead_inOrder h
  case grantSweep => exact grantSweep_inOrder h

theorem settleN_inOrder (n : Nat) (h : InOrder st mq full ops s) : InOrder st mq full ops (settleN n s) := by
  induction n generalizing s with
  | zero => exact h
  | succ n ih =>
    unfold settleN
    split
    · exact h
    next hdue => exact ih (doAct_inOrder hdue h)

theorem settle_inOrder (h : InOrder st mq full ops s) : InOrder st mq full ops (settle s) := settleN_inOrder _ h

end Sys2Proof.Machine
end

section
/-!
PROOFS. What the map, the queue and the controller's operation keep of one another (R38, R40, R41, R60) under the drive's
events, the timers and the controller's orders.
-/

namespace Sys2Proof.Machine

variable {st mq full ops : Prop} {s : State} {a : Addr}

/-! ### The LOST judgement and the drive's events -/

theorem lostClear_inOrder (h : InOrder st mq full ops s) : InOrder st mq full ops (lostClear s) :=
  ite_inOrder (ite_inOrder h (issueOrder_inOrder h)) h

theorem headLosesDrive_inOrder (h : InOrder st mq full ops s) : InOrder st mq full ops (headLosesDrive s) := by
  unfold headLosesDrive
  dsimp only
  split
  · exact h
  · exact ite_inOrder h
      (updateJob_inOrder (f := fun j => { j with state := .waiting, readsDone := 0 }) (fun _ => ⟨rfl, rfl⟩) h)

/-- With the drive lost no positioning goes on, so an operation that ends leaves nothing that stood for it (R25, R37). -/
theorem operationLosesDrive_inOrder (ht : s.drv.travel = none) (h : InOrder st mq full ops s) :
    InOrder st mq full ops (operationLosesDrive s) := by
  unfold operationLosesDrive
  split
  · exact h
  next o hop =>
    have ends : ∀ {w}, (OpsFit s.map.claim (some o) s.ctl.withhold.isSome none → w = false) → o.kind ≠ .servedWrite →
        Coherent st mq full ops s.map.entries s.map.store s.map.claim (places s.seq.queue) none w
          (s.drv.travel.map Travel.purpose) := fun hw hk => by
      rw [ht]
      refine h.reop fun hfit => ?_
      rw [hop, ht] at hfit
      rw [hfit.unclaimed_of_kind hk, hw hfit]
      exact opsFit_none nofun
    split
    next hk =>
      cases hw : s.ctl.withhold with
      | none =>
        have hclosed : closeWithhold .driveLost s = s := by simp only [closeWithhold, hw]
        rw [hclosed]
        exact ends (fun _ => by rw [hw]; rfl) (by simp [hk])
      | some w =>
        rw [closeWithhold_eq hw]
        exact ends (fun _ => rfl) (by simp [hk])
    next hk => exact ite_inOrder h (ends (fun hfit => hfit.not_withheld (by simp [hk])) (by simp [hk]))
    next hk => exact ite_inOrder h (ends (fun hfit => hfit.not_withheld (by simp [hk])) (by simp [hk]))
    all_goals exact h

theorem passiveGoesOn_inOrder (h : InOrder st mq full ops s) : InOrder st mq full ops (passiveGoesOn s) :=
  ite_inOrder (ite_inOrder (takeDrive_inOrder h) h) h

theorem abandonCapture_travel (s : State) : (abandonCapture s).drv.travel = s.drv.travel := by
  unfold abandonCapture lowerReadGate
  repeat' split
  all_goals rfl

theorem headLosesDrive_drv (s : State) : (headLosesDrive s).drv = s.drv := by
  unfold headLosesDrive updateJob
  dsimp only
  repeat' split
  all_goals rfl

theorem setHolder_travel (x : Holder) (s : State) : (setHolder x s).drv.travel = s.drv.travel := by
  unfold setHolder markResting
  dsimp only
  split <;> rfl

theorem judgeLost_inOrder (h : InOrder st mq full ops s) : InOrder st mq full ops (judgeLost s) := by
  have hp : InOrder st mq full ops (partyLosesDrive s) := setHolder_inOrder
    (s := { headLosesDrive (dropWork (interruptSweep s)) with drv.step := none, drv.passOn := .stays, drv.quietDue := none })
    (headLosesDrive_inOrder (dropWork_inOrder (interruptSweep_inOrder h)))
  have ht : (partyLosesDrive s).drv.travel = none := by
    rw [partyLosesDrive, setHolder_travel]
    exact (congrArg DrivePort.travel (headLosesDrive_drv _)).trans (abandonCapture_travel _)
  exact passiveGoesOn_inOrder (lostClear_inOrder (s := logIncident .driveLost
    (startGenerator (operationLosesDrive (partyLosesDrive s)))) (operationLosesDrive_inOrder ht hp))

theorem relayedEnds_inOrder {ok : Bool} (h : InOrder st mq full ops s) : InOrder st mq full ops (relayedEnds ok s) :=
  endUse_inOrder (ite_inOrder (ite_inOrder h h) h)

theorem stepCompletes_inOrder (h : InOrder st mq full ops s) : InOrder st mq full ops (stepCompletes s) := by
  unfold stepCompletes
  split
  · exact h
  · exact ite_inOrder (relayedEnds_inOrder (completeStep_inOrder h)) (completeStep_inOrder h)

theorem stepFails_inOrder (h : InOrder st mq full ops s) : InOrder st mq full ops (stepFails s) := by
  unfold stepFails
  split
  · exact h
  · dsimp only
    split
    · exact relayedEnds_inOrder h
    · refine ite_inOrder ?_ h
      split
      next ht => exact travelFails_inOrder (s := { s with drv.step := none }) (congrArg (Option.map Travel.purpose) ht) h
      · exact h

/-! ### The ends of captures -/

theorem promoteLive_inOrder {f : Field} (h : InOrder st mq full ops s) : InOrder st mq full ops (promoteLive a f s) := by
  unfold promoteLive
  split
  · exact h
  next e he =>
    split
    · exact endRecovered_inOrder h
    next hb => exact settleInOwnSlot_inOrder h he hb
    all_goals exact h

theorem liveFull_inOrder {f : Field} (h : InOrder st mq full ops s) : InOrder st mq full ops (liveFull a f s) :=
  ite_inOrder (ite_inOrder (changeHead_inOrder h) (promoteLive_inOrder (changeHead_inOrder h)))
    (ite_inOrder (changeHead_inOrder h) (requestJob_inOrder (changeHead_inOrder h)))

theorem recoveryFull_inOrder {f : Field} (h : InOrder st mq full ops s) : InOrder st mq full ops (recoveryFull a f s) :=
  ite_inOrder (endRecovered_inOrder (updateJob_inOrder
      (f := fun j => { j with readsSpent := j.readsSpent + 1, readsDone := j.readsDone + 1 }) (fun _ => ⟨rfl, rfl⟩) h))
    (chargeRead_inOrder h)

theorem sweepFull_inOrder {f : Field} (h : InOrder st mq full ops s) : InOrder st mq full ops (sweepFull a f s) :=
  afterSweepCapture_inOrder (ite_inOrder (changeHead_inOrder h) (sweepRequest_inOrder h))

theorem sweepShort_inOrder (h : InOrder st mq full ops s) : InOrder st mq full ops (sweepShort a s) := by
  refine afterSweepCapture_inOrder ?_
  split <;> exact h

theorem captureEndsFull_inOrder {c : Capture} {f : Field} {rate : Nat} (h : InOrder st mq full ops s) :
    InOrder st mq full ops (captureEndsFull c f rate s) := by
  unfold captureEndsFull
  dsimp only
  split
  · exact liveFull_inOrder h
  · exact recoveryFull_inOrder (lowerReadGate_inOrder h)
  · exact sweepFull_inOrder (lowerReadGate_inOrder h)

theorem captureEndsShort_inOrder {c : Capture} (h : InOrder st mq full ops s) :
    InOrder st mq full ops (captureEndsShort c s) := by
  unfold captureEndsShort
  dsimp only
  split
  · exact h
  · exact chargeRead_inOrder (lowerReadGate_inOrder h)
  · exact sweepShort_inOrder (lowerReadGate_inOrder h)

/-! ### Marks and levels -/

/-- An operation that has the drive goes on, no claim standing before or after (R16, R41). -/
theorem OpsFit.goesOn {c : Option Claim} {w : Bool} {p : Option Purpose} {o o' : Op} (h : OpsFit c (some o) w p)
    (hk : o'.kind = o.kind) (hd : o.phase ≠ .awaitingDrive) (ht : ¬InTransfer o) (ho : OpFits o') (ht' : ¬InTransfer o') :
    OpsFit c (some o') w p := by
  obtain rfl := h.unclaimed fun _ hx => Option.some.inj hx ▸ ht
  have hw := h.withheld
  rw [Option.map_some, Option.some.injEq, ← hk] at hw
  exact opsFit_some ho ht' hw fun x hx hr => absurd hr (h.unseated_of_phase hd x hx)

/-- MATCH brings a live operation that awaits it to its gate (R16, R17). -/
theorem relayMatch_inOrder (h : InOrder st mq full ops s) : InOrder st mq full ops (relayMatch s) := by
  unfold relayMatch
  split
  · exact h
  next o hop =>
    split
    next hwaits =>
      obtain ⟨hphase, hk⟩ := hwaits
      have hheld : o.kind ≠ .withheld := by rcases hk with hk | hk <;> simp [hk]
      refine h.reop fun hfit => ?_
      have heach := hfit.each o hop
      rw [hop] at hfit
      refine hfit.goesOn (o' := { o with phase := .awaitingGate }) rfl (by simp [hphase]) (by simp [hphase])
        ⟨fun hd => ?_, fun hd => ?_, fun hd => ?_, fun hw => absurd hw hheld⟩ (by simp)
      · obtain ⟨-, hread, hwrite, -⟩ := heach.due hd
        exact absurd hk (not_or.2 ⟨hread, hwrite⟩)
      · exact absurd (heach.ended hd) (by simp [hphase])
      · exact absurd (heach.refused hd).2 (by simp [hphase])
    · exact h

theorem judgeIndex_inOrder (h : InOrder st mq full ops s) : InOrder st mq full ops (judgeIndex s) := by
  unfold judgeIndex
  split
  · exact h
  · exact ite_inOrder (ite_inOrder h h) h

theorem indexAtCapture_inOrder (h : InOrder st mq full ops s) : InOrder st mq full ops (indexAtCapture s) := by
  unfold indexAtCapture
  split
  · exact h
  · exact ite_inOrder h (ite_inOrder h (captureEndsShort_inOrder h))

theorem indexAtSweep_inOrder (h : InOrder st mq full ops s) : InOrder st mq full ops (indexAtSweep s) := ite_inOrder h h

theorem faultAtHolder_inOrder (h : InOrder st mq full ops s) : InOrder st mq full ops (faultAtHolder s) :=
  ite_inOrder (startEpisode_inOrder h) h

theorem restartTrack_inOrder (h : InOrder st mq full ops s) :
    InOrder st mq full ops { s with drv.travel := some (sweepTravel s) } :=
  h.deviceTravel (x := .sweep) (by simp)

theorem resumeAfterFault_inOrder {e : Episode} (h : InOrder st mq full ops s) :
    InOrder st mq full ops (resumeAfterFault e s) := by
  unfold resumeAfterFault
  dsimp only
  split
  next ht =>
    refine travelFails_inOrder ?_ (ite_inOrder h h)
    exact congrArg (Option.map Travel.purpose) ht
  · exact ite_inOrder (restartTrack_inOrder (ite_inOrder h h)) (ite_inOrder h h)

/-! ### What taking an order ends -/

theorem released_sublist (es : List Entry) (c : Option Claim) :
    (usedSlots es ++ heldSlots none).Sublist (usedSlots es ++ heldSlots c) :=
  (List.append_sublist_append_left _).2 (List.nil_sublist _)

/-- A claim's end gives back what it holds (R41). -/
theorem Coherent.released {es store c q op w p} (h : Coherent st mq full False es store c q op w p) :
    Coherent st mq full False es store none q op w p :=
  { h with
    room := fun hf => ⟨Nat.le_trans (Nat.le_add_right _ _) (h.room hf).entries,
      (h.room hf).once.sublist (released_sublist es c), fun k hk => (h.room hf).range k ((released_sublist es c).subset hk)⟩
    claim := fun _ => ⟨nofun, nofun⟩
    ops := False.elim }

theorem lowerLiveReadGate_changes (s : State) : ∃ c g o,
    lowerLiveReadGate s = { s with drv.capture := c, drv.readGate := g, out := o } := by
  unfold lowerLiveReadGate lowerReadGate
  repeat' split
  all_goals exact ⟨_, _, _, rfl⟩

/-- The current operation ended, with nothing said yet of what stood for it (R15, R41). -/
theorem endOperation_mapOnly (h : InOrder st mq full False s) : InOrder st mq full False (endOperation s) := by
  unfold endOperation
  split
  · exact h
  · have hnone : InOrder st mq full False { s with ctl.op := none } := h.mapOnly
    dsimp only
    split
    · exact ite_inOrder hnone hnone
    · exact ite_inOrder hnone hnone
    · exact hnone.released
    · exact hnone
    · obtain ⟨c, g, o, hlow⟩ := lowerLiveReadGate_changes { s with ctl.op := none }
      obtain ⟨t, hdrop, -⟩ := dropReseat_leaves (lowerLiveReadGate { s with ctl.op := none })
      rw [hdrop, hlow]
      exact endUse_inOrder h.mapOnly
    · obtain ⟨t, hdrop, -⟩ := dropReseat_leaves (lowerWriteGate { s with ctl.op := none })
      rw [hdrop]
      exact endUse_inOrder (lowerWriteGate_inOrder hnone).mapOnly
    · exact hnone

theorem endWithholdByOrder_mapOnly (h : InOrder st mq full False s) : InOrder st mq full False (endWithholdByOrder s) := by
  cases hw : s.ctl.withhold with
  | none => rwa [endWithholdByOrder_none hw]
  | some w =>
    obtain ⟨t, hdrop, -⟩ := dropReseat_leaves (reported .order w s)
    rw [endWithholdByOrder_eq hw, hdrop]
    exact endUse_inOrder (demoteJob_inOrder h.mapOnly)

/-- No re-seat of the controller is made (R122). -/
abbrev Unseated (s : State) : Prop := ∀ x, s.drv.travel.map Travel.purpose = some x → ¬Reseats x

theorem unseated_dropReseat (s : State) : Unseated (dropReseat s) := by
  obtain ⟨t, hdrop, hseat⟩ := dropReseat_leaves s
  rw [Unseated, hdrop]
  exact hseat

/-- Giving up the drive leaves the positioning as it was or drops it (R134). -/
theorem giveUp_travel (s : State) : (giveUp s).drv.travel = s.drv.travel ∨ (giveUp s).drv.travel = none := by
  have hd : (dropWork s).drv.travel = none := abandonCapture_travel _
  unfold giveUp
  split
  · refine .inr ?_
    dsimp only
    split
    · split <;> exact hd
    · rw [setHolder_travel]
      exact hd
  · exact .inl rfl

theorem unseated_giveUp (h : Unseated s) : Unseated (giveUp s) := fun x hx => by
  rcases giveUp_travel s with ht | ht
  · exact h x (ht ▸ hx)
  · rw [ht] at hx
    cases hx

theorem unseated_ite {p : Prop} [Decidable p] {t : State} (hs : Unseated s) (ht : Unseated t) :
    Unseated (if p then s else t) := by
  split
  · exact hs
  · exact ht

theorem unseated_reorder {f : List Job → List Job} (h : Unseated s) : Unseated (reorder f s) := by
  unfold reorder leaveHead
  dsimp only
  split
  · exact h
  · exact unseated_ite h (unseated_ite (unseated_giveUp (unseated_ite h h)) (unseated_ite h h))

theorem unseated_demoteJob (h : Unseated s) : Unseated (demoteJob a s) := by
  have hr : Unseated (reorder (demoted a) s) := unseated_reorder h
  unfold demoteJob
  dsimp only
  split
  · exact unseated_ite (unseated_giveUp hr) hr
  · exact hr

theorem unseated_endUse (h : Unseated s) : Unseated (endUse s) := by
  obtain ⟨q, hq⟩ := endUse_changes_quiet s
  rw [hq]
  exact h

/-- What the end of an operation leaves of what stood for it: a withholding alone, with its re-seat (R36, R41, R122). -/
theorem endOperation_leaves (h : OpsFit s.map.claim s.ctl.op s.ctl.withhold.isSome (s.drv.travel.map Travel.purpose)) :
    (endOperation s).map.claim = none ∧ (endOperation s).ctl.withhold = s.ctl.withhold ∧
      (s.ctl.withhold = none → Unseated (endOperation s)) := by
  unfold endOperation
  split
  next hop =>
    rw [hop] at h
    refine ⟨h.unclaimed nofun, rfl, fun _ x hx hr => ?_⟩
    obtain ⟨o, ho, -⟩ := h.reseats x hx hr
    cases ho
  next o hop =>
    rw [hop] at h
    have hseat : o.kind ≠ .liveRead → o.kind ≠ .liveWrite → o.kind ≠ .withheld → Unseated s := fun hr hw hk x hx hs => by
      obtain ⟨o', ho, -, hlive, hheld⟩ := h.reseats x hx hs
      obtain rfl := Option.some.inj ho
      rcases hs with hs | hs
      · exact absurd (hlive hs) (not_or.2 ⟨hr, hw⟩)
      · exact hk (hheld hs)
    dsimp only
    split
    next hk =>
      rw [stopSending_eq]
      exact ⟨h.unclaimed_of_kind (by simp [hk]), rfl, fun _ => hseat (by simp [hk]) (by simp [hk]) (by simp [hk])⟩
    next hk =>
      rw [stopSending_eq]
      exact ⟨h.unclaimed_of_kind (by simp [hk]), rfl, fun _ => hseat (by simp [hk]) (by simp [hk]) (by simp [hk])⟩
    next hk => exact ⟨rfl, rfl, fun _ => hseat (by simp [hk]) (by simp [hk]) (by simp [hk])⟩
    next hk =>
      exact ⟨h.unclaimed_of_kind (by simp [hk]), rfl, fun _ => hseat (by simp [hk]) (by simp [hk]) (by simp [hk])⟩
    next hk =>
      obtain ⟨c, g, out, hlow⟩ := lowerLiveReadGate_changes { s with ctl.op := none }
      have hu := unseated_endUse (unseated_dropReseat (lowerLiveReadGate { s with ctl.op := none }))
      obtain ⟨d, hdrop⟩ := dropReseat_changes (lowerLiveReadGate { s with ctl.op := none })
      obtain ⟨q, hquiet⟩ := endUse_changes_quiet (dropReseat (lowerLiveReadGate { s with ctl.op := none }))
      refine ⟨?_, ?_, fun _ => hu⟩
      · rw [hquiet, hdrop, hlow]
        exact h.unclaimed_of_kind (by simp [hk])
      · rw [hquiet, hdrop, hlow]
    next hk =>
      have hu := unseated_endUse (unseated_dropReseat (lowerWriteGate { s with ctl.op := none }))
      obtain ⟨d, hdrop⟩ := dropReseat_changes (lowerWriteGate { s with ctl.op := none })
      obtain ⟨q, hquiet⟩ := endUse_changes_quiet (dropReseat (lowerWriteGate { s with ctl.op := none }))
      refine ⟨?_, ?_, fun _ => hu⟩
      · rw [hquiet, hdrop, lowerWriteGate_eq]
        exact h.unclaimed_of_kind (by simp [hk])
      · rw [hquiet, hdrop, lowerWriteGate_eq]
    next hk =>
      refine ⟨h.unclaimed_of_kind (by simp [hk]), rfl, fun hw => ?_⟩
      have := h.withheld.2 (by rw [Option.map_some, hk])
      rw [hw] at this
      cases this

theorem endOperation_op (s : State) : (endOperation s).ctl.op = none := by
  unfold endOperation
  split
  next hop => exact hop
  next o hop =>
    dsimp only
    split
    · rw [stopSending_eq]
    · rw [stopSending_eq]
    · rfl
    · rfl
    · obtain ⟨c, g, out, hlow⟩ := lowerLiveReadGate_changes { s with ctl.op := none }
      obtain ⟨d, hdrop⟩ := dropReseat_changes (lowerLiveReadGate { s with ctl.op := none })
      obtain ⟨q, hquiet⟩ := endUse_changes_quiet (dropReseat (lowerLiveReadGate { s with ctl.op := none }))
      rw [hquiet, hdrop, hlow]
    · obtain ⟨d, hdrop⟩ := dropReseat_changes (lowerWriteGate { s with ctl.op := none })
      obtain ⟨q, hquiet⟩ := endUse_changes_quiet (dropReseat (lowerWriteGate { s with ctl.op := none }))
      rw [hquiet, hdrop, lowerWriteGate_eq]
    · rfl

theorem demoteJob_map (a : Addr) (s : State) : (demoteJob a s).map = s.map := by
  obtain ⟨q, e, d, o, h⟩ := reorder_changes (demoted a) s
  have hgive : ∀ t : State, (giveUp t).map = t.map := fun t => by
    obtain ⟨d, ht | ht⟩ := giveUp_changes t <;> rw [ht]
  simp only [demoteJob, h]
  split
  · split
    · exact hgive _
    · rfl
  · rfl

/-- An order leaves no operation and nothing that stands for one (R15, R37, R41, R122). -/
theorem endWithholdByOrder_leaves (hop : s.ctl.op = none) (hseat : s.ctl.withhold = none → Unseated s) :
    (endWithholdByOrder s).ctl.op = none ∧ (endWithholdByOrder s).ctl.withhold = none ∧
      (endWithholdByOrder s).map.claim = s.map.claim ∧ Unseated (endWithholdByOrder s) := by
  cases hw : s.ctl.withhold with
  | none =>
    rw [endWithholdByOrder_none hw]
    exact ⟨hop, hw, rfl, hseat hw⟩
  | some w =>
    have hu := unseated_endUse (unseated_demoteJob (a := w.addr) (unseated_dropReseat (reported .order w s)))
    obtain ⟨q, hquiet⟩ := endUse_changes_quiet (demoteJob w.addr (dropReseat (reported .order w s)))
    obtain ⟨d, hdrop⟩ := dropReseat_changes (reported .order w s)
    rw [endWithholdByOrder_eq hw]
    refine ⟨?_, ?_, ?_, hu⟩
    · rw [hquiet, demoteJob_ctl, hdrop]
      exact hop
    · rw [hquiet, demoteJob_ctl, hdrop]
    · rw [hquiet, demoteJob_map, hdrop]

/-- An order, or a gate's fall, ends the operation; with the withholding ended too, nothing stands for one. -/
theorem ended_inOrder (h : InOrder st mq full ops s) :
    InOrder st mq full ops (endWithholdByOrder (endOperation s)) ∧ (endWithholdByOrder (endOperation s)).ctl.op = none := by
  have hmap := endWithholdByOrder_mapOnly (endOperation_mapOnly h.mapOnly)
  have hop : (endWithholdByOrder (endOperation s)).ctl.op = none := by
    cases hw : (endOperation s).ctl.withhold with
    | none => rw [endWithholdByOrder_none hw, endOperation_op]
    | some w =>
      obtain ⟨q, hquiet⟩ := endUse_changes_quiet (demoteJob w.addr (dropReseat (reported .order w (endOperation s))))
      obtain ⟨d, hdrop⟩ := dropReseat_changes (reported .order w (endOperation s))
      rw [endWithholdByOrder_eq hw, hquiet, demoteJob_ctl, hdrop]
      exact endOperation_op s
  refine ⟨hmap.withOps h.within fun ho => ?_, hop⟩
  obtain ⟨hclaim, hw, hseat⟩ := endOperation_leaves (h.ops ho)
  obtain ⟨hop', hnone, hsame, hu⟩ := endWithholdByOrder_leaves (endOperation_op s) (hw ▸ hseat)
  rw [hop', hnone, hsame, hclaim]
  exact opsFit_none hu

theorem takeOrder_inOrder {o : Order} (h : InOrder st mq full ops s) :
    InOrder st mq full ops (takeOrder o s) ∧ (takeOrder o s).ctl.op = none := by
  obtain ⟨he, hop⟩ := ended_inOrder h
  have hview : InOrder st mq full ops (updateView o (endWithholdByOrder (endOperation s))) ∧
      (updateView o (endWithholdByOrder (endOperation s))).ctl.op = none := by
    cases o <;> exact ⟨he, hop⟩
  unfold takeOrder recordOrder
  split <;> exact hview

/-! ### What the orders do -/

theorem relay_inOrder {o : Order} (h : InOrder st mq full ops s) : InOrder st mq full ops (relay o s) :=
  takeDrive_inOrder h

theorem positionView_inOrder (h : InOrder st mq full ops s) : InOrder st mq full ops (positionView s) := by
  refine ite_inOrder h (ite_inOrder ?_ h)
  dsimp only
  split <;> exact h

theorem actPosition_inOrder {o : Order} (h : InOrder st mq full ops s) : InOrder st mq full ops (actPosition o s) :=
  ite_inOrder (relay_inOrder h) (positionView_inOrder h)

theorem actHead_inOrder {n : Nat} (h : InOrder st mq full ops s) : InOrder st mq full ops (actHead n s) :=
  ite_inOrder (relay_inOrder h) h

theorem actMargin_inOrder {x : Strobe} {off old : Offset} (h : InOrder st mq full ops s) :
    InOrder st mq full ops (actMargin x off old s) := by
  refine ite_inOrder (ite_inOrder h (relay_inOrder (ite_inOrder h h))) (ite_inOrder h ?_)
  split
  · exact h
  · exact ite_inOrder h h

theorem actClear_inOrder (h : InOrder st mq full ops s) : InOrder st mq full ops (actClear s) :=
  ite_inOrder h (ite_inOrder (relay_inOrder h) (ite_inOrder (relay_inOrder h) h))

section
variable (hop : s.ctl.op = none)
include hop

theorem beginServed_inOrder {kind : OpKind} (hk : kind ≠ .liveRead ∧ kind ≠ .liveWrite ∧ kind ≠ .withheld)
    (h : InOrder st mq full ops s) : InOrder st mq full ops (beginServed kind a s) := by
  refine h.reop fun hfit => ?_
  rw [hop] at hfit
  exact hfit.begins (opFits_served hk) (by simp [newOp]) hk.2.2

theorem beginLive_fresh_inOrder {kind : OpKind} (hk : kind = .liveRead ∨ kind = .liveWrite)
    (h : InOrder st mq full ops s) : InOrder st mq full ops (beginLive kind a s) := by
  rw [InOrder, hop] at h
  exact beginLive_inOrder hk h

theorem beginWithhold_inOrder (h : InOrder st mq full ops s) : InOrder st mq full ops (beginWithhold a s) := by
  have hr : InOrder st mq full ops (reorder (promoted a) s) := reorder_regroups (regroups_promoted a) h
  obtain ⟨q, e, d, o, hreorder⟩ := reorder_changes (promoted a) s
  have hop' : (reorder (promoted a) s).ctl.op = none := by
    rw [hreorder]
    exact hop
  refine takeDrive_inOrder (hr.reop fun hfit => ?_)
  rw [hop'] at hfit
  exact hfit.withholds a

theorem decideRead_inOrder (h : InOrder st mq full ops s) : InOrder st mq full ops (decideRead a s) := by
  have hlive : InOrder st mq full ops (beginLive .liveRead a s) := beginLive_fresh_inOrder hop (.inl rfl) h
  unfold decideRead
  split
  · exact hlive
  · split
    · exact ite_inOrder (beginWithhold_inOrder hop h) hlive
    · exact hlive
    · exact beginServed_inOrder hop (by simp) h
    · exact beginServed_inOrder hop (by simp) h

theorem actTargetRead_inOrder {k : Nat} (h : InOrder st mq full ops s) : InOrder st mq full ops (actTargetRead k s) := by
  refine ite_inOrder h (ite_inOrder (beginServed_inOrder hop (by simp) h) ?_)
  split
  · exact beginLive_fresh_inOrder hop (.inl rfl) h
  · exact h
  · exact ite_inOrder (decideRead_inOrder hop h) h

theorem actTargetWrite_inOrder {k : Nat} (h : InOrder st mq full ops s) : InOrder st mq full ops (actTargetWrite k s) := by
  refine ite_inOrder h (ite_inOrder (beginServed_inOrder hop (by simp) h) ?_)
  split
  · exact beginLive_fresh_inOrder hop (.inr rfl) h
  · exact h
  · exact ite_inOrder (beginServed_inOrder hop (by simp) h) h

theorem actOrder_inOrder {old : Offset} {o : Order} (h : InOrder st mq full ops s) :
    InOrder st mq full ops (actOrder old o s) := by
  cases o
  case position => exact actPosition_inOrder h
  case head => exact actHead_inOrder h
  case ret => exact actPosition_inOrder h
  case margin => exact actMargin_inOrder h
  case targetRead => exact actTargetRead_inOrder hop h
  case targetWrite => exact actTargetWrite_inOrder hop h
  case clear => exact actClear_inOrder h

end

theorem exec_order_inOrder {c : Instr} {dt : Nat} {o : Order} (ho : orderOf c = some (dt, o)) (h : InOrder st mq full ops s) :
    LeadsTo (InOrder st mq full ops) (exec c s) := by
  obtain ⟨htaken, hop⟩ := takeOrder_inOrder (o := o) (begin_inOrder (dt := dt) h)
  rw [exec_order ho s]
  exact leadsTo_next.2 (settle_inOrder (actOrder_inOrder hop htaken))

/-! ### Timers and votes -/

theorem quietPasses_inOrder (h : InOrder st mq full ops s) : InOrder st mq full ops (quietPasses s) :=
  ite_inOrder h (ite_inOrder (ite_inOrder h (setHolder_inOrder h)) h)

theorem limitPasses_inOrder (h : InOrder st mq full ops s) : InOrder st mq full ops (limitPasses s) := by
  refine ite_inOrder ?_ (endWithholdDemoting_inOrder h)
  have hsame : (s.ctl.withhold.map fun w => { w with limitPassed := true }).isSome = s.ctl.withhold.isSome :=
    Option.isSome_map ..
  refine h.reop fun hfit => ?_
  rw [hsame]
  exact hfit

theorem voteFails_inOrder (h : InOrder st mq full ops s) : InOrder st mq full ops (voteFails a s) := by
  unfold voteFails
  split
  · exact h
  · exact failRung_inOrder h

theorem takeOutcome_inOrder {v : Vote} (h : InOrder st mq full ops s) : InOrder st mq full ops (takeOutcome v s) := by
  have hu : InOrder st mq full ops (updateJob v.owner (fun j => { j with
      lastWeak := some v.weakCount
      lastAmbiguous := decide (voteEnd s.straps v = .ambiguous) }) s) := updateJob_inOrder (f := fun j => { j with
        lastWeak := some v.weakCount
        lastAmbiguous := decide (voteEnd s.straps v = .ambiguous) }) (fun _ => ⟨rfl, rfl⟩) h
  unfold takeOutcome
  dsimp only
  split
  · exact endRecovered_inOrder hu
  · exact endRecovered_inOrder hu
  all_goals exact voteFails_inOrder hu

end Sys2Proof.Machine
end

section
/-!
PROOFS. What the map, the queue and the controller's operation keep of one another (R38, R40, R41, R60) under the gates, the
written fields and the service commands; and the two rules over every step.
-/

namespace Sys2Proof.Machine

variable {st mq full ops : Prop} {s : State} {a : Addr}

/-! ### Gates and generated MATCH -/

theorem opFits_transferring {o : Op} (h : OpFits o) (hp : o.phase = .awaitingGate) (hg : o.gateRefused = false) :
    OpFits { o with phase := .transferring } where
  due hd := absurd (hp.symm.trans (h.due hd).1) (by simp)
  ended _ := rfl
  refused hr := absurd (hg.symm.trans hr) (by simp)
  withheld hw := by rcases h.withheld hw with hx | hx <;> exact absurd (hp.symm.trans hx) (by simp)

/-- A read's gate, or that of a write that claims nothing, brings its transfer (R16). -/
theorem transfer_inOrder {o : Op} (h : InOrder st mq full ops s) (hop : s.ctl.op = some o) (hp : o.phase = .awaitingGate)
    (hg : OpFits o → o.gateRefused = false) (hk : o.kind ≠ .servedWrite) : InOrder st mq full ops (transfer o s) :=
  h.reop fun hfit => by
    have heach := hfit.each o hop
    rw [hop] at hfit
    exact hfit.goesOn rfl (by simp [hp]) (by simp [hp]) (opFits_transferring heach hp (hg heach)) (by simp [hk])

theorem not_refused_of_isRead {o : Op} (hr : o.kind.isRead = true) (h : OpFits o) : o.gateRefused = false := by
  cases hg : o.gateRefused with
  | false => rfl
  | true =>
    rw [(h.refused hg).1] at hr
    cases hr

theorem exec_readGate_inOrder {dt : Nat} (h : InOrder st mq full ops s) :
    LeadsTo (InOrder st mq full ops) (exec (.readGate dt) s) := by
  have hb := begin_inOrder (dt := dt) h
  simp only [exec, execReadGate]
  split
  · exact leadsTo_next.2 hb
  next o hop =>
    split
    next hgate =>
      obtain ⟨hphase, hread⟩ := hgate
      have ht := transfer_inOrder hb hop hphase (not_refused_of_isRead hread) (fun hk => by rw [hk] at hread; cases hread)
      split
      · exact leadsTo_next.2 ht
      · exact leadsTo_next.2 ht
    · exact leadsTo_next.2 hb

/-- What the map claims for a write has its room there (R41, R43). -/
theorem claimFor_fits {c : Claim} (hc : claimFor s a = some c) (hnone : s.map.claim = none)
    (hroom : RoomFits s.map.entries none) :
    c.addr = a ∧ RoomFits s.map.entries (some c) ∧ ClaimFits s.map.entries (some c) := by
  have hentries := hroom.entries
  have hfree : freeSlots s ≠ 0 → RoomFits s.map.entries (some ⟨a, false, some (freeSlot s)⟩) ∧
      freeSlot s < 1024 ∧ freeSlot s ∉ usedSlots s.map.entries := fun hfree => by
    obtain ⟨hlt, hnot, -⟩ := freeSlot_spec (s := s) (by
      simp only [freeSlots, slotsClaimed_eq, hnone, Config.capacity] at hfree ⊢
      simp [heldSlots] at hfree ⊢
      omega)
    simp only [hnone, slotsInUse_eq, heldSlots, Option.bind_none, Option.toList_none, List.append_nil] at hnot
    refine ⟨⟨by simpa using hentries, ?_, fun k hk => ?_⟩, hlt, hnot⟩
    · exact (List.perm_append_singleton _ _).nodup_iff.2
        (List.nodup_cons.2 ⟨hnot, by simpa [heldSlots] using hroom.once⟩)
    · rcases List.mem_append.1 hk with hk | hk
      · exact hroom.range k (List.mem_append_left _ hk)
      · rw [List.mem_singleton.1 hk]
        exact hlt
  unfold claimFor at hc
  split at hc
  next he =>
    split at hc
    · cases hc
    next hnew =>
      obtain rfl := Option.some.inj hc
      rw [not_or] at hnew
      obtain ⟨hnew, hslot⟩ := hnew
      obtain ⟨hfits, -, -⟩ := hfree hslot
      refine ⟨rfl, ⟨?_, hfits.once, hfits.range⟩, ⟨fun k hk _ => ?_, fun k e hk hke => ?_⟩⟩
      · simp only [freeEntries, Config.capacity] at hnew
        simp
        omega
      · obtain rfl := Option.some.inj hk
        exact ⟨rfl, rfl⟩
      · obtain rfl := Option.some.inj hk
        cases he.symm.trans hke
  next e he =>
    split at hc
    next hb =>
      split at hc
      · cases hc
      next hslot =>
        obtain rfl := Option.some.inj hc
        obtain ⟨hfits, -, -⟩ := hfree hslot
        refine ⟨rfl, hfits, ⟨fun k hk hke => ?_, fun k x hk hke => ?_⟩⟩
        · obtain rfl := Option.some.inj hk
          cases hke.symm.trans he
        · obtain rfl := Option.some.inj hk
          obtain rfl := Option.some.inj (hke.symm.trans he)
          exact ⟨rfl, by simp [hb]⟩
    next hb =>
      obtain rfl := Option.some.inj hc
      refine ⟨rfl, ⟨by simpa using hentries, by simpa [heldSlots] using hroom.once,
        by simpa [heldSlots] using hroom.range⟩, ⟨fun k hk hke => ?_, fun k x hk hke => ?_⟩⟩
      · obtain rfl := Option.some.inj hk
        cases hke.symm.trans he
      · obtain rfl := Option.some.inj hk
        obtain rfl := Option.some.inj (hke.symm.trans he)
        exact ⟨rfl, by simp [hb]⟩

/-- A served write's gate, accepted, brings its transfer and its claim together (R30, R41). -/
theorem claimed_inOrder {o : Op} {c : Claim} (h : InOrder st mq full full s) (hop : s.ctl.op = some o)
    (hp : o.phase = .awaitingGate) (hg : o.gateRefused = false) (hk : o.kind = .servedWrite)
    (hc : claimFor s o.addr = some c) : InOrder st mq full full (transfer o { s with map.claim := some c }) := by
  have hfits := fun hf : full => by
    have hfit := h.ops hf
    rw [hop] at hfit
    have hnone := hfit.unclaimed_of_phase (by simp [hp])
    have hroom := h.room hf
    rw [hnone] at hroom
    exact claimFor_fits hc hnone hroom
  refine { h with
    room := fun hf => (hfits hf).2.1
    claim := fun hf => (hfits hf).2.2
    ops := fun hf => ?_ }
  have hfit := h.ops hf
  have heach := hfit.each o hop
  rw [hop] at hfit
  exact {
    claimed := fun k hk' => ⟨_, rfl, ⟨hk, rfl, by
      cases he : o.fieldEnded with
      | false => rfl
      | true => exact absurd (hp.symm.trans (heach.ended he)) (by simp)⟩, Option.some.inj hk' ▸ (hfits hf).1.symm⟩
    transfers := fun _ _ _ => rfl
    withheld := hfit.withheld
    each := fun _ hx => Option.some.inj hx ▸ opFits_transferring heach hp hg
    reseats := fun x hx hr => absurd hr (hfit.unseated_of_phase (by simp [hp]) x hx) }

theorem exec_writeGate_inOrder {dt : Nat} (h : InOrder st mq full full s) :
    LeadsTo (InOrder st mq full full) (exec (.writeGate dt) s) := by
  have hb := begin_inOrder (dt := dt) h
  simp only [exec, execWriteGate]
  split
  · exact leadsTo_next.2 hb
  next o hop =>
    split
    next hgate =>
      obtain ⟨hphase, hrefused⟩ := hgate
      have ht : o.kind ≠ .servedWrite → InOrder st mq full full (transfer o (begin dt s)) :=
        transfer_inOrder hb hop hphase fun _ => hrefused
      split
      next hk =>
        split
        next c hc => exact leadsTo_next.2 (claimed_inOrder hb hop hphase hrefused hk hc)
        next =>
          refine leadsTo_next.2 (hb.reop fun hfit => ?_)
          have heach := hfit.each o hop
          rw [hop] at hfit
          exact hfit.goesOn (o' := { o with gateRefused := true }) rfl (by simp [hphase]) (by simp [hphase])
            { heach with refused := fun _ => ⟨hk, hphase⟩ } (by simp [hphase])
      next hk => exact leadsTo_next.2 (ht (by simp [hk]))
      next hk => exact leadsTo_next.2 (ht (by simp [hk]))
      all_goals exact leadsTo_next.2 hb
    · exact leadsTo_next.2 hb

/-- A gate's fall ends the operation, none of them a withheld one (R16). -/
theorem endOperation_inOrder {o : Op} (h : InOrder st mq full ops s) (hop : s.ctl.op = some o)
    (hk : OpFits o → o.kind ≠ .withheld) : InOrder st mq full ops (endOperation s) := by
  refine (endOperation_mapOnly h.mapOnly).withOps h.within fun ho => ?_
  have hfit := h.ops ho
  obtain ⟨hclaim, hw, hseat⟩ := endOperation_leaves hfit
  have heach := hfit.each o hop
  rw [hop] at hfit
  have hnone : s.ctl.withhold = none := by simpa using hfit.not_withheld (hk heach)
  rw [endOperation_op, hclaim, hw, hnone]
  exact opsFit_none (hseat hnone)

theorem passBits_inOrder {bits : List Bool} (h : InOrder st mq full ops s) : InOrder st mq full ops (passBits bits s) := by
  obtain ⟨o, e⟩ := passBits_changes bits s
  rw [e]
  exact h

theorem matched_inOrder {o : Op} (h : InOrder st mq full ops s) (hop : s.ctl.op = some o) (hdue : o.matchDue.isSome = true) :
    InOrder st mq full ops (matched o s) := by
  refine h.reop fun hfit => ?_
  have heach := hfit.each o hop
  rw [hop] at hfit
  obtain ⟨hphase, -, -, hheld⟩ := heach.due hdue
  refine hfit.goesOn (o' := { o with phase := .awaitingGate, matchDue := none, built := _ }) rfl (by simp [hphase])
    (by simp [hphase]) ⟨nofun, fun hd => ?_, fun hd => ?_, fun hw => absurd hw hheld⟩ (by simp)
  · exact absurd (hphase.symm.trans (heach.ended hd)) (by simp)
  · exact absurd (hphase.symm.trans (heach.refused hd).2) (by simp)

/-! ### Written fields -/

theorem opFits_ended {o : Op} (h : OpFits o) (hp : o.phase = .transferring) : OpFits { o with fieldEnded := true } where
  due hd := absurd (hp.symm.trans (h.due hd).1) (by simp)
  ended _ := hp
  refused hr := absurd (hp.symm.trans (h.refused hr).2) (by simp)
  withheld hw := by rcases h.withheld hw with hx | hx <;> exact absurd (hp.symm.trans hx) (by simp)

/-- The end of a written field leaves no claim to stand (R14, R41). -/
theorem OpsFit.fieldEnds {c : Option Claim} {w : Bool} {p : Option Purpose} {o : Op} (h : OpsFit c (some o) w p)
    (hp : o.phase = .transferring) : OpsFit none (some { o with fieldEnded := true }) w p := by
  have hw := h.withheld
  rw [Option.map_some, Option.some.injEq] at hw
  exact opsFit_some (opFits_ended (h.each o rfl) hp) (by simp) hw fun x hx hr =>
    absurd hr (h.unseated_of_phase (by simp [hp]) x hx)

theorem endField_inOrder {o : Op} (h : InOrder st mq full ops s) (hop : s.ctl.op = some o) (hp : o.phase = .transferring)
    (hk : o.kind ≠ .servedWrite) : InOrder st mq full ops (endField s) := by
  rw [endField_eq hop]
  refine h.reop fun hfit => ?_
  rw [hop] at hfit
  have hends := hfit.fieldEnds hp
  rwa [← hfit.unclaimed_of_kind hk] at hends

/-- A written field that ends SHORT releases its claim (R14, R41). -/
theorem shortField_inOrder {o : Op} (h : InOrder st mq full ops s) (hop : s.ctl.op = some o)
    (hp : o.phase = .transferring) : InOrder st mq full ops (releaseClaim (endField s)) := by
  rw [endField_eq hop]
  have hm : InOrder st mq full False s := h.mapOnly
  refine hm.released.withOps h.within fun ho => ?_
  have hfit := h.ops ho
  rw [hop] at hfit
  exact hfit.fieldEnds hp

theorem writing_some {o : Op} (h : writing s = some o) :
    s.ctl.op = some o ∧ o.phase = .transferring ∧ o.fieldEnded = false ∧
      (o.kind = .servedWrite ∨ o.kind = .serviceWrite ∨ o.kind = .liveWrite) := by
  unfold writing at h
  split at h
  · cases h
  next o' hop =>
    split at h
    next hw =>
      obtain rfl := Option.some.inj h
      exact ⟨hop, hw⟩
    · cases h

/-! ### A sector's entry created settled -/

section
variable {es : List Entry} {kind : Settled} {org : Origin} {n k : Nat} {w : Option Nat}

/-- An entry created and settled at once takes one entry and one slot (R49, R53). -/
theorem roomFits_created (h : Ascending es) (hnew : findEntry es a = none) (hlen : es.length < 1024)
    (honce : (k :: usedSlots es).Nodup) (hrange : ∀ x ∈ k :: usedSlots es, x < 1024) :
    RoomFits (withBody a (.settled kind n w k) (insertEntry ⟨a, org, .pending⟩ es)) none := by
  have hfound : findEntry (insertEntry ⟨a, org, .pending⟩ es) a = some ⟨a, org, .pending⟩ := by
    rw [findEntry_insertEntry (e := ⟨a, org, .pending⟩) hnew, if_pos rfl]
  have hperm : (usedSlots (withBody a (.settled kind n w k) (insertEntry ⟨a, org, .pending⟩ es)) ++ heldSlots none).Perm
      (k :: usedSlots es) := by
    simpa [heldSlots] using (usedSlots_settled (kind := kind) (n := n) (k := k) (w := w)
      (ascending_insertEntry h hnew) hfound rfl).trans (.cons _ (usedSlots_insertEntry a org es))
  refine ⟨?_, hperm.nodup_iff.2 honce, fun x hx => hrange x (hperm.mem_iff.1 hx)⟩
  rw [length_withBody, (insertEntry_perm _ es).length_eq]
  exact hlen

theorem created_inOrder {store : List (Nat × List Byte)} {c : Option Claim} {q : List (Addr × JobClass)} {op : Option Op}
    {b : Bool} {p : Option Purpose} {bytes : List Byte} (h : Coherent st mq full False es store c q op b p)
    (hnew : findEntry es a = none)
    (hroom : full → RoomFits (withBody a (.settled kind n w k) (insertEntry ⟨a, org, .pending⟩ es)) none) :
    Coherent st mq full False (withBody a (.settled kind n w k) (insertEntry ⟨a, org, .pending⟩ es))
      (putSlot k bytes store) none q op b p where
  within := False.elim
  ordered := h.ordered
  store hst := putSlot_wf (h.store hst)
  map hm := ascending_withBody (ascending_insertEntry (h.map hm) hnew)
  queue := h.queue
  jobs hm x := by
    refine (h.jobs hm x).trans (.trans ?_ (pending_settled (by simp) x).symm)
    constructor
    · rintro ⟨e, hmem, rfl, hb⟩
      exact ⟨findEntry_eq_none.1 hnew e hmem, e, mem_insertEntry.2 (.inr hmem), rfl, hb⟩
    · rintro ⟨hx, e, hmem, haddr, hb⟩
      rcases mem_insertEntry.1 hmem with rfl | hmem
      · exact absurd haddr.symm hx
      · exact ⟨e, hmem, haddr, hb⟩
  room := hroom
  claim _ := ⟨nofun, nofun⟩
  ops := False.elim

end

/-- A full write makes its sector an OVERLAY, and its claim ends with it (R41, R43, R49). -/
theorem overlay_mapOnly {f : Field} (h : InOrder st mq full False s)
    (hc : full → ∃ c, s.map.claim = some c ∧ c.addr = a) : InOrder st mq full False (releaseClaim (overlay a f s)) := by
  unfold overlay
  split
  next he =>
    rw [settleInNewSlot_eq]
    refine created_inOrder h he fun hf => ?_
    obtain ⟨c, hclaim, haddr⟩ := hc hf
    have hroom := h.room hf
    have hfits := h.claim hf
    rw [hclaim] at hroom hfits
    obtain ⟨hentry, hslot⟩ := hfits.unmapped c rfl (haddr ▸ he)
    obtain ⟨i, hi⟩ := Option.isSome_iff_exists.1 hslot
    have hfor : slotFor (addEntry ⟨a, .controller, .pending⟩ s) a = i := by simp [slotFor, addEntry, hclaim, haddr, hi]
    have hperm : (usedSlots s.map.entries ++ heldSlots (some c)).Perm (i :: usedSlots s.map.entries) := by
      simp [heldSlots, hi]
    rw [hfor]
    refine roomFits_created (h.map (h.ordered hf)) he ?_ (hperm.nodup_iff.1 hroom.once)
      fun x hx => hroom.range x (hperm.mem_iff.2 hx)
    have hentries := hroom.entries
    simp [hentry] at hentries
    omega
  next e he =>
    split
    next hb => exact (cancelJob_inOrder (settled_inOrder h fun _ => ⟨e, he, hb⟩)).released
    next hb => exact (settleInOwnSlot_inOrder h he hb).released

theorem unseated_cancelJob (h : Unseated s) : Unseated (cancelJob a s) := by
  unfold cancelJob removeJob
  split
  · obtain ⟨x, c, e⟩ := noticeSweep_changes (reorder (withoutJob a) (markDiscard a s))
    rw [e]
    exact unseated_reorder (s := markDiscard a s) h
  · exact h

theorem unseated_overlay {f : Field} (h : Unseated s) : Unseated (overlay a f s) := by
  unfold overlay
  split
  · rw [settleInNewSlot_eq]
    exact h
  · split
    · refine unseated_cancelJob ?_
      rw [settleInNewSlot_eq]
      exact h
    · exact h

theorem cancelJob_ctl (a : Addr) (s : State) : (cancelJob a s).ctl = s.ctl := by
  unfold cancelJob removeJob
  split
  · obtain ⟨x, c, e⟩ := noticeSweep_changes (reorder (withoutJob a) (markDiscard a s))
    obtain ⟨q, g, d, o, hr⟩ := reorder_changes (withoutJob a) (markDiscard a s)
    rw [e, hr]
    rfl
  · rfl

theorem overlay_ctl (a : Addr) (f : Field) (s : State) : (overlay a f s).ctl = s.ctl := by
  unfold overlay
  split
  · rw [settleInNewSlot_eq]
    rfl
  · split
    · rw [cancelJob_ctl, settleInNewSlot_eq]
    · rfl

theorem writtenField_inOrder {o : Op} {f : Field} (h : InOrder st mq full full s) (hop : s.ctl.op = some o)
    (hp : o.phase = .transferring) (he : o.fieldEnded = false) (hk : o.kind = .servedWrite) :
    InOrder st mq full full (releaseClaim (overlay o.addr f (endField s))) := by
  have hends : (endField s).ctl.op = some { o with fieldEnded := true } := by rw [endField_eq hop]
  have hover : InOrder st mq full False (releaseClaim (overlay o.addr f (endField s))) := by
    refine overlay_mapOnly h.mapOnly fun hf => ?_
    have hfit := h.ops hf
    obtain ⟨c, hc⟩ := Option.isSome_iff_exists.1 (hfit.transfers o hop ⟨hk, hp, he⟩)
    obtain ⟨o', ho', -, haddr⟩ := hfit.claimed c hc
    obtain rfl := Option.some.inj (hop.symm.trans ho')
    exact ⟨c, hc, haddr.symm⟩
  refine hover.withOps id fun hf => ?_
  have hfit := h.ops hf
  rw [hop] at hfit
  have hu : Unseated (overlay o.addr f (endField s)) :=
    unseated_overlay (s := endField s) (hfit.unseated_of_phase (by simp [hp]))
  have hw := (hfit.fieldEnds hp).withheld
  rw [Option.map_some, Option.some.injEq] at hw
  show OpsFit none (overlay o.addr f (endField s)).ctl.op (overlay o.addr f (endField s)).ctl.withhold.isSome
    ((overlay o.addr f (endField s)).drv.travel.map Travel.purpose)
  rw [overlay_ctl, hends]
  exact opsFit_some (opFits_ended (hfit.each o rfl) hp) (by simp) hw fun x hx hr => absurd hr (hu x hx)

/-! ### QUEUE SECTOR, RELEASE ENTRY and IMPORT PAGE -/

/-- The map with a sector's entry PENDING again, with origin SERVICE (R52). -/
def pendingAgain (a : Addr) (es : List Entry) : List Entry := es.map fun e => if e.addr = a then ⟨a, .service, .pending⟩ else e

theorem usedSlots_pendingAgain (a : Addr) (es : List Entry) : (usedSlots (pendingAgain a es)).Sublist (usedSlots es) := by
  induction es with
  | nil => exact .refl _
  | cons e es ih =>
    rw [pendingAgain, List.map_cons, usedSlots_cons, usedSlots_cons]
    refine List.Sublist.append ?_ ih
    split
    · exact List.nil_sublist _
    · exact .refl _

/-- A settled sector made PENDING again is so with the others (R52). -/
theorem pending_pendingAgain {es : List Entry} {e : Entry} (he : findEntry es a = some e) (x : Addr) :
    (∃ y ∈ pendingAgain a es, y.addr = x ∧ y.body = .pending) ↔ x = a ∨ ∃ y ∈ es, y.addr = x ∧ y.body = .pending := by
  constructor
  · rintro ⟨y, hy, rfl, hb⟩
    obtain ⟨z, hz, rfl⟩ := List.mem_map.1 hy
    split
    · exact .inl rfl
    next hza => rw [if_neg hza] at hb; exact .inr ⟨z, hz, rfl, hb⟩
  · rintro (rfl | ⟨y, hy, rfl, hb⟩)
    · exact ⟨_, List.mem_map.2 ⟨e, mem_of_findEntry he, if_pos (addr_of_findEntry he)⟩, rfl, rfl⟩
    · by_cases hya : y.addr = a
      · exact ⟨_, List.mem_map.2 ⟨y, hy, if_pos hya⟩, hya.symm, rfl⟩
      · exact ⟨y, List.mem_map.2 ⟨y, hy, if_neg hya⟩, rfl, hb⟩

section
variable (hc : full → s.map.claim = none)
include hc

/-- A LOST sector queued again (R52). -/
theorem requeue_inOrder {e : Entry} {kind : Settled} {n k : Nat} {w : Option Nat} (h : InOrder st mq full ops s)
    (he : entryOf s a = some e) (hb : e.body = .settled kind n w k) (hroom : ¬Config.queueRoom ≤ s.seq.queue.length) :
    InOrder st mq full ops (requeue a k s) := by
  have hnot : mq → a ∉ sectors s.seq.queue := fun hm ha => by
    obtain ⟨x, hx, hpend⟩ := (pending_iff (h.map hm)).1 ((h.jobs hm a).1 ha)
    obtain rfl := Option.some.inj (hx.symm.trans he)
    rw [hb] at hpend
    cases hpend
  have hjoin := fun hm : mq => (h.queue hm).join (j := newJob s a .background .service) (hnot hm)
    (by simpa [Config.queueRoom] using hroom)
  refine enqueueJob_inOrder {
    within := h.within
    ordered := h.ordered
    store := fun hst => dropSlot_wf (h.store hst)
    map := fun hm => ascending_map (fun e => ?_) (h.map hm)
    queue := fun hm => (hjoin hm).1
    jobs := fun hm x => ((hjoin hm).2 x).trans ((or_congr_right (h.jobs hm x)).trans (pending_pendingAgain he x).symm)
    room := fun hf => ?_
    claim := fun hf => ?_
    ops := h.ops }
  · split
    next hx => exact hx.symm
    · rfl
  · have hsub := (usedSlots_pendingAgain a s.map.entries).append_right (heldSlots s.map.claim)
    exact ⟨(Nat.le_of_eq (by rw [List.length_map])).trans (h.room hf).entries, (h.room hf).once.sublist hsub,
      fun x hx => (h.room hf).range x (hsub.subset hx)⟩
  · rw [show s.map.claim = none from hc hf]
    exact ⟨nofun, nofun⟩

theorem queueSectorReply_inOrder {a0 a1 : Nat} (h : InOrder st mq full ops s) :
    InOrder st mq full ops (queueSectorReply a0 a1 s).1 := by
  unfold queueSectorReply
  split
  · exact h
  · refine addressed_keeps (P := InOrder st mq full ops) h fun a => ?_
    unfold queueEntry
    split
    · split
      · exact h
      next hmet => exact admitSector_inOrder h hmet
    next e he =>
      split
      · exact h
      next hb =>
        split
        · exact h
        next hroom => exact requeue_inOrder hc h he hb hroom
      · exact h
      · exact h

/-- A sector without its entry, its slot and its job (R54, R80). -/
theorem released_inOrder (h : InOrder st mq full ops s) : InOrder st mq full ops (cancelJob a (dropEntry a s)) := by
  cases he : entryOf s a with
  | none =>
    have hsame : dropEntry a s = s := by simp only [dropEntry, he]
    have hnojob : ∀ j ∈ s.seq.queue, mq → j.addr ≠ a := fun j hj hm ha => by
      refine not_queued_of_entryOf h hm he ?_
      rw [sectors_eq, ← ha]
      exact List.mem_map_of_mem hj
    rw [hsame]
    refine cancelJob_inOrder { h with
      queue := fun hm => ((h.queue hm).without a).1
      jobs := fun hm x => ?_ }
    rw [show (unqueued a s).seq.queue = s.seq.queue from withoutJob_of_not_mem fun j hj => hnojob j hj hm]
    exact h.jobs hm x
  | some e =>
    have hdrop : ∃ x c store, dropEntry a s = { s with
        map.entries := s.map.entries.filter fun x => decide (x.addr ≠ a)
        map.store := store
        sweep.state := x
        sweep.cause := c } ∧ (Store.wf s.map.store = true → Store.wf store = true) := by
      simp only [dropEntry, he]
      obtain ⟨x, c, hn⟩ := noticeSweep_changes { s with
        map.entries := s.map.entries.filter fun x => decide (x.addr ≠ a)
        map.store := match e.body.slot? with
          | some k => dropSlot k s.map.store
          | none => s.map.store }
      refine ⟨x, c, _, hn, fun hwf => ?_⟩
      split
      · exact dropSlot_wf hwf
      · exact hwf
    obtain ⟨x, c, store, hdrop, hwf⟩ := hdrop
    rw [hdrop]
    refine cancelJob_inOrder {
      within := h.within
      ordered := h.ordered
      store := fun hst => hwf (h.store hst)
      map := fun hm => (h.map hm).filter _
      queue := fun hm => ((h.queue hm).without a).1
      jobs := fun hm x => (((h.queue hm).without a).2 x).trans ?_
      room := fun hf => ?_
      claim := fun hf => ?_
      ops := h.ops }
    · refine (and_congr_right fun _ => h.jobs hm x).trans ⟨?_, ?_⟩
      · rintro ⟨hx, y, hy, rfl, hb⟩
        exact ⟨y, List.mem_filter.2 ⟨hy, by simpa using hx⟩, rfl, hb⟩
      · rintro ⟨y, hy, rfl, hb⟩
        obtain ⟨hy, hx⟩ := List.mem_filter.1 hy
        exact ⟨by simpa using hx, y, hy, rfl, hb⟩
    · have hsub := (usedSlots_filter (fun x => decide (x.addr ≠ a)) s.map.entries).append_right (heldSlots s.map.claim)
      exact ⟨(Nat.add_le_add_right (List.length_filter_le _ _) _).trans (h.room hf).entries, (h.room hf).once.sublist hsub,
        fun x hx => (h.room hf).range x (hsub.subset hx)⟩
    · rw [show s.map.claim = none from hc hf]
      exact ⟨nofun, nofun⟩

theorem releaseEntryReply_inOrder {a0 a1 : Nat} (h : InOrder st mq full ops s) :
    InOrder st mq full ops (releaseEntryReply a0 a1 s).1 := by
  refine addressed_keeps (P := InOrder st mq full ops) h fun a => ?_
  split
  · exact h
  · exact released_inOrder hc h

/-- A sector without an entry gets a settled one in the lowest free slot (R53). -/
theorem createdEntry_inOrder {kind : Settled} {org : Origin} {f : Field} {n : Nat} {w : Option Nat}
    (h : InOrder st mq full full s) (he : entryOf s a = none) (hfree : ¬(freeEntries s = 0 ∨ freeSlots s = 0)) :
    InOrder st mq full full (settleInNewSlot a kind f n w (addEntry ⟨a, org, .pending⟩ s)) := by
  rw [settleInNewSlot_eq]
  have hsame : full → passedClaim a s.map.claim = none := fun hf => by rw [hc hf]; rfl
  have hmade : InOrder st mq full False { addEntry ⟨a, org, .pending⟩ s with
      map.entries := withBody a (.settled kind n w (slotFor (addEntry ⟨a, org, .pending⟩ s) a))
        (insertEntry ⟨a, org, .pending⟩ s.map.entries)
      map.store := putSlot (slotFor (addEntry ⟨a, org, .pending⟩ s) a) (packImage s.straps.bits f) s.map.store
      map.claim := none } := by
    refine created_inOrder h.mapOnly he fun hf => ?_
    have hnone := hc hf
    have hroom := h.room hf
    rw [hnone] at hroom
    rw [not_or] at hfree
    obtain ⟨hentries, hslots⟩ := hfree
    have hused : (slotsInUse (addEntry ⟨a, org, .pending⟩ s)).Perm (usedSlots s.map.entries) := usedSlots_insertEntry a org _
    have hfor : slotFor (addEntry ⟨a, org, .pending⟩ s) a = freeSlot (addEntry ⟨a, org, .pending⟩ s) := by
      simp [slotFor, addEntry, hnone]
    have hclaim : (addEntry ⟨a, org, .pending⟩ s).map.claim = none := hnone
    obtain ⟨hlt, hnot, -⟩ := freeSlot_spec (s := addEntry ⟨a, org, .pending⟩ s) (by
      rw [hclaim, List.length_append, hused.length_eq]
      simp only [freeSlots, slotsInUse_eq, Config.capacity] at hslots
      simp [heldSlots]
      omega)
    rw [hclaim, (hused.append_right _).mem_iff] at hnot
    simp only [heldSlots, Option.bind_none, Option.toList_none, List.append_nil] at hnot
    rw [hfor]
    refine roomFits_created (h.map (h.ordered hf)) he ?_ (List.nodup_cons.2 ⟨hnot, by simpa [heldSlots] using hroom.once⟩)
      fun x hx => ?_
    · simp only [freeEntries, Config.capacity] at hentries
      omega
    · rcases List.mem_cons.1 hx with rfl | hx
      · exact hlt
      · exact hroom.range x (List.mem_append_left _ hx)
  refine { hmade with
    within := id
    room := fun hf => ?_
    claim := fun hf => ?_
    ops := fun hf => (h.ops hf).passed a }
  · show RoomFits _ (passedClaim a s.map.claim)
    rw [hsame hf]
    exact hmade.room hf
  · show ClaimFits _ (passedClaim a s.map.claim)
    rw [hsame hf]
    exact ⟨nofun, nofun⟩

theorem importImage_inOrder {f : Field} (h : InOrder st mq full full s) :
    InOrder st mq full full (importImage a f s).1 := by
  unfold importImage
  split
  · exact h
  · split
    next he =>
      split
      · exact h
      next hfree => exact createdEntry_inOrder hc h he hfree
    next e he =>
      split
      next hb => exact cancelJob_inOrder (settled_inOrder h fun _ => ⟨e, he, hb⟩)
      · exact h
      next hb => exact settleInOwnSlot_inOrder h he hb
      next hb => exact settleInOwnSlot_inOrder h he hb

theorem laterPage_inOrder {p : Nat} {us : List Nat} (h : InOrder st mq full full s) :
    InOrder st mq full full (laterPage a p us s).1 := by
  unfold laterPage
  split
  · exact h
  · split
    · exact h
    · split
      · exact h
      · exact importImage_inOrder (s := dropStaging s) hc h

theorem importPageReply_inOrder {a0 a1 p : Nat} {us : List Nat} (h : InOrder st mq full full s) :
    InOrder st mq full full (importPageReply a0 a1 p us s).1 := by
  unfold importPageReply
  split
  · exact h
  · split
    · exact h
    · split
      · exact h
      · dsimp only
        split
        · exact h
        · exact laterPage_inOrder hc h

/-- With every job cancelled no PENDING entry is left (R55, R81). -/
theorem cancelAll_inOrder (h : InOrder st mq full ops s) : InOrder st mq full ops (cancelAll s) where
  within := h.within
  ordered := h.ordered
  store := h.store
  map hm := (h.map hm).filter _
  queue _ := ⟨Nat.zero_le _, List.nodup_nil, List.Pairwise.nil⟩
  jobs hm x := by
    refine ⟨nofun, fun ⟨e, hmem, _, hb⟩ => ?_⟩
    obtain ⟨-, hslot⟩ := List.mem_filter.1 hmem
    rw [hb] at hslot
    cases hslot
  room hf := by
    have hsub := (usedSlots_filter (fun e => e.body.slot?.isSome) s.map.entries).append_right (heldSlots s.map.claim)
    exact ⟨(Nat.add_le_add_right (List.length_filter_le _ _) _).trans (h.room hf).entries, (h.room hf).once.sublist hsub,
      fun x hx => (h.room hf).range x (hsub.subset hx)⟩
  claim hf := by
    show ClaimFits _ s.map.claim
    rw [hc hf]
    exact ⟨nofun, nofun⟩
  ops := h.ops

theorem passivateReply_inOrder (h : InOrder st mq full ops s) : InOrder st mq full ops (passivateReply s).1 := by
  have hg := giveUp_inOrder (s := clearLimiter { cancelAll s with sweep := idleSweep (cancelAll s).sweep })
    (cancelAll_inOrder hc h)
  unfold passivateReply
  split
  · exact h
  · exact ite_inOrder hg hg

end

/-! ### The other service commands -/

theorem setParametersReply_inOrder {m a1 a2 a3 a4 a5 : Nat} (h : InOrder st mq full ops s) :
    InOrder st mq full ops (setParametersReply m a1 a2 a3 a4 a5 s).1 := by
  unfold setParametersReply limiterActs
  dsimp only
  repeat' split
  all_goals exact h

theorem replaceSweep_inOrder {w : Sweep} (h : InOrder st mq full ops s) : InOrder st mq full ops (replaceSweep w s) :=
  ite_inOrder (giveUp_inOrder (s := { s with sweep := w }) h) h

theorem startSweepReply_inOrder {b l f p : Nat} (h : InOrder st mq full ops s) :
    InOrder st mq full ops (startSweepReply b l f p s).1 := by
  unfold startSweepReply
  split
  · exact h
  · split
    · exact h
    · split
      · exact replaceSweep_inOrder h
      · exact h

theorem setSweepStopReply_inOrder {p : Nat} (h : InOrder st mq full ops s) :
    InOrder st mq full ops (setSweepStopReply p s).1 := by
  unfold setSweepStopReply
  repeat' split
  all_goals exact h

theorem setHeadReply_inOrder {n m th sc : Nat} (h : InOrder st mq full ops s) :
    InOrder st mq full ops (setHeadReply n m th sc s).1 := by
  unfold setHeadReply
  split
  · exact h
  · exact changeHead_inOrder h

theorem activateReply_inOrder (h : InOrder st mq full ops s) : InOrder st mq full ops (activateReply s).1 := by
  unfold activateReply activateLines modeSettle
  repeat' split
  all_goals exact h

theorem captiveReply_inOrder (h : InOrder st mq full ops s) :
    InOrder st mq full ops (captiveOnReply s).1 ∧ InOrder st mq full ops (captiveOffReply s).1 := by
  unfold captiveOnReply captiveOffReply captiveLines releaseLines
  constructor
  all_goals
    repeat' split
    all_goals exact h

/-- The commands that load tables and read reports change neither map nor queue nor operation. -/
theorem tableReply_inOrder (h : InOrder st mq full ops s) :
    (∀ c n k, InOrder st mq full ops (setGeometryReply c n k s).1) ∧
    (∀ k n lo hi l, InOrder st mq full ops (loadZoneReply k n lo hi l s).1) ∧
    (∀ k, InOrder st mq full ops (clearZoneReply k s).1) ∧
    (∀ k m l n, InOrder st mq full ops (setLadderHeaderReply k m l n s).1) ∧
    (∀ k i r0 r1, InOrder st mq full ops (loadRungReply k i r0 r1 s).1) ∧
    ∀ k, InOrder st mq full ops (clearLadderReply k s).1 := by
  unfold setGeometryReply loadZoneReply clearZoneReply setLadderHeaderReply loadRungReply clearLadderReply
  refine ⟨?_, ?_, ?_, ?_, ?_, ?_⟩
  all_goals
    intros
    dsimp only
    repeat' split
    all_goals exact h

/-- A command that reports leaves the state and holds its answer. -/
theorem answer_same_inOrder {tag : Nat} {r : State × Reply} (h : InOrder st mq full ops s) (e : r.1 = s) :
    InOrder st mq full ops (answer tag r) := by
  rw [← e] at h
  exact h

theorem runCommand_inOrder (c : Instr) (hc : full → s.map.claim = none) (h : InOrder st mq full full s) :
    InOrder st mq full full (runCommand c s) := by
  obtain ⟨geometry, zone, noZone, header, rung, noLadder⟩ := tableReply_inOrder h
  obtain ⟨captiveOn, captiveOff⟩ := captiveReply_inOrder h
  cases c
  case setGeometry => exact geometry ..
  case setParameters => exact settle_inOrder (setParametersReply_inOrder h)
  case loadZone => exact zone ..
  case clearZone => exact noZone ..
  case setLadderHeader => exact header ..
  case loadRung => exact rung ..
  case clearLadder => exact noLadder ..
  case setHead => exact setHeadReply_inOrder h
  case startSweep => exact settle_inOrder (startSweepReply_inOrder h)
  case setSweepStop => exact settle_inOrder (setSweepStopReply_inOrder h)
  case abortSweep => exact settle_inOrder (replaceSweep_inOrder h)
  case queueSector => exact settle_inOrder (queueSectorReply_inOrder hc h)
  case releaseEntry => exact settle_inOrder (releaseEntryReply_inOrder hc h)
  case importPage => exact settle_inOrder (importPageReply_inOrder hc h)
  case exportPage => exact answer_same_inOrder h (exportPageReply_state s)
  case readMap => exact answer_same_inOrder h (readMapReply_state s)
  case readQueue => exact answer_same_inOrder h (readQueueReply_state s)
  case readHealth => exact answer_same_inOrder h (readHealthReply_state s)
  case readLog => exact answer_same_inOrder h (readLogReply_state s)
  case readLadder => exact answer_same_inOrder h (readLadderReply_state s)
  case activate => exact settle_inOrder (activateReply_inOrder h)
  case captiveOn => exact captiveOn
  case captiveOff => exact captiveOff
  case passivate => exact settle_inOrder (passivateReply_inOrder hc h)
  all_goals exact h

theorem judgeField_inOrder {f : Field} (hc : full → s.map.claim = none) (h : InOrder st mq full full s) :
    InOrder st mq full full (judgeField f s) := by
  unfold judgeField
  dsimp only
  split
  · exact h
  · split
    · exact h
    · split
      · exact h
      · exact runCommand_inOrder _ hc h

end Sys2Proof.Machine
end

section
/-!
PROOFS. The two rules over every command: the map, the queue and the controller's operation (R38, R40, R41, R60), and the
image store's form (R40).
-/

namespace Sys2Proof.Machine

variable {st mq full : Prop} {s : State}

/-- Where a command frame can arrive a service write is in transfer, so no claim stands (R31, R41). -/
theorem onFrame_inOrder {act : State → State} (h : InOrder st mq full full s)
    (hact : ∀ t, (full → t.map.claim = none) → InOrder st mq full full t → InOrder st mq full full (act t)) :
    InOrder st mq full full (onFrame act s) := by
  unfold onFrame
  split
  next haccepts =>
    unfold acceptsFrame at haccepts
    split at haccepts
    next o hop =>
      simp only [Bool.and_eq_true, decide_eq_true_eq] at haccepts
      obtain ⟨⟨hk, -, -, hp⟩, -⟩ := haccepts
      refine hact _ (fun hf => ?_) (endField_inOrder h hop hp (by simp [hk]))
      have hfit := h.ops hf
      rw [hop] at hfit
      exact hfit.unclaimed_of_kind (by simp [hk])
    · cases haccepts
  · exact h

theorem exec_field_inOrder {c : Instr} (h : InOrder st mq full full s) (hf : carriesField c = true) :
    LeadsTo (InOrder st mq full full) (exec c s) := by
  cases c
  case commandFrameRefused dt field =>
    exact leadsTo_next.2 (onFrame_inOrder (begin_inOrder h) fun t hc ht => judgeField_inOrder hc ht)
  case writeFieldFull dt field =>
    have hb := begin_inOrder (dt := dt) h
    simp only [exec, execWriteFieldFull]
    split
    · exact leadsTo_next.2 hb
    next o ho =>
      obtain ⟨hop, hp, hends, hk⟩ := writing_some ho
      have he : o.kind ≠ .servedWrite → InOrder st mq full full (endField (begin dt s)) := endField_inOrder hb hop hp
      split
      next hk => exact leadsTo_next.2 (settle_inOrder (writtenField_inOrder hb hop hp hends hk))
      next hk => exact leadsTo_next.2 (he (by simp [hk]))
      next hnot _ =>
        split
        · refine leadsTo_next.2 (judgeField_inOrder (fun hfull => ?_) (he hnot))
          have hfit := hb.ops hfull
          rw [hop] at hfit
          exact hfit.unclaimed_of_kind hnot
        · exact leadsTo_next.2 (he hnot)
  all_goals cases hf

theorem exec_gateFalls_inOrder {dt : Nat} {tail : WriteTail} (h : InOrder st mq full full s) :
    LeadsTo (InOrder st mq full full) (exec (.readGateFalls dt) s) ∧
      LeadsTo (InOrder st mq full full) (exec (.writeGateFalls tail) s) ∧
      LeadsTo (InOrder st mq full full) (exec (.writeClockTimeout tail) s) := by
  have hb := begin_inOrder (dt := dt) h
  have hp := passBits_inOrder (bits := tail.bits) (begin_inOrder (dt := tail.dt) h)
  have held : ∀ {o : Op}, (o.phase = .transferring ∨ o.gateRefused = true) → OpFits o → o.kind ≠ .withheld :=
    fun hends hfits hk => by
      rcases hends with hphase | hrefused
      · rcases hfits.withheld hk with hx | hx <;> exact absurd (hphase.symm.trans hx) (by simp)
      · exact absurd ((hfits.refused hrefused).1.symm.trans hk) (by simp)
  simp only [exec, execReadGateFalls, execWriteGateFalls, execWriteClockTimeout]
  refine ⟨?_, ?_, ?_⟩
  · split
    · exact leadsTo_next.2 hb
    next o hop =>
      split
      next hends => exact leadsTo_next.2 (settle_inOrder (endOperation_inOrder hb hop (held (.inl hends.1))))
      · exact leadsTo_next.2 hb
  · split
    · exact leadsTo_next.2 hp
    next o hop =>
      split
      next hends => exact leadsTo_next.2 (settle_inOrder (endOperation_inOrder hp hop (held hends.2)))
      · exact leadsTo_next.2 hp
  · split
    · exact leadsTo_next.2 hp
    next o ho =>
      obtain ⟨hop, hphase, -, -⟩ := writing_some ho
      exact leadsTo_next.2 (shortField_inOrder hp hop hphase)

theorem exec_mark_inOrder {dt : Nat} (h : InOrder st mq full full s) :
    LeadsTo (InOrder st mq full full) (exec (.driveMatch dt) s) ∧ LeadsTo (InOrder st mq full full) (exec .generatedMatch s) ∧
      LeadsTo (InOrder st mq full full) (exec .generatedIndex s) ∧
      LeadsTo (InOrder st mq full full) (exec (.driveIndex dt) s) := by
  have hb := begin_inOrder (dt := dt) h
  have hc : ∀ c, InOrder st mq full full { begin dt s with drv.capture := c } := fun _ => hb
  simp only [exec, execDriveMatch, execGeneratedMatch, execGeneratedIndex, execDriveIndex]
  refine ⟨?_, ?_, ?_, leadsTo_next.2 (settle_inOrder ?_)⟩
  · split
    · exact leadsTo_next.2 (relayMatch_inOrder hb)
    · split
      · exact leadsTo_next.2 hb
      · split
        · exact leadsTo_next.2 (relayMatch_inOrder (hc _))
        all_goals exact leadsTo_next.2 hb
  · split
    · exact leadsTo_next.2 h
    next o ho =>
      split
      · exact leadsTo_next.2 h
      next t ht =>
        have hop : (beginAt t s).ctl.op = some o := by simpa [beginAt_eq_begin] using ho
        exact leadsTo_next.2 (matched_inOrder (beginAt_inOrder h) hop (by rw [ht]; rfl))
  · split
    · exact leadsTo_next.2 h
    next t _ => exact leadsTo_next.2 (beginAt_inOrder (t := t) h)
  · exact indexAtSweep_inOrder (indexAtCapture_inOrder (judgeIndex_inOrder (s := measureIndex (begin dt s)) hb))

theorem exec_level_inOrder {dt : Nat} {level : Bool} (h : InOrder st mq full full s) :
    LeadsTo (InOrder st mq full full) (exec (.driveReadyFalls dt) s) ∧
      LeadsTo (InOrder st mq full full) (exec (.driveReadyRises dt) s) ∧
      LeadsTo (InOrder st mq full full) (exec (.driveFaultRises dt) s) ∧
      LeadsTo (InOrder st mq full full) (exec (.driveFaultFalls dt) s) ∧
      LeadsTo (InOrder st mq full full) (exec (.driveProtectChanges dt level) s) := by
  have hb := begin_inOrder (dt := dt) h
  simp only [exec, execDriveReadyFalls, execDriveReadyRises, execDriveFaultRises, execDriveFaultFalls,
    execDriveProtectChanges]
  refine ⟨?_, leadsTo_next.2 (lostClear_inOrder hb), leadsTo_next.2 (settle_inOrder ?_), ?_, leadsTo_next.2 hb⟩
  · split
    · exact leadsTo_next.2 (settle_inOrder (judgeLost_inOrder hb))
    · exact leadsTo_next.2 hb
  · exact lostClear_inOrder (faultAtHolder_inOrder hb)
  · split
    · exact leadsTo_next.2 hb
    · exact leadsTo_next.2 (settle_inOrder (resumeAfterFault_inOrder hb))

theorem exec_capture_inOrder {dt rate : Nat} {field : List Nat} (h : InOrder st mq full full s) :
    LeadsTo (InOrder st mq full full) (exec (.captureFull dt field rate) s) ∧
      LeadsTo (InOrder st mq full full) (exec (.readClockTimeout dt) s) ∧
      LeadsTo (InOrder st mq full full) (exec (.servedTransferEnds dt) s) := by
  have hb := begin_inOrder (dt := dt) h
  simp only [exec, execCaptureFull, execReadClockTimeout, execServedTransferEnds]
  refine ⟨?_, ?_, ?_⟩
  · split
    · exact leadsTo_next.2 hb
    · split
      · exact leadsTo_next.2 (settle_inOrder (captureEndsFull_inOrder hb))
      · exact leadsTo_next.2 hb
  · split
    · exact leadsTo_next.2 hb
    · split
      · exact leadsTo_next.2 (settle_inOrder (captureEndsShort_inOrder hb))
      · exact leadsTo_next.2 hb
  · split
    · exact leadsTo_next.2 hb
    next o hop =>
      split
      next hends =>
        obtain ⟨hp, -, hk⟩ := hends
        exact leadsTo_next.2 (endField_inOrder hb hop hp (by rcases hk with hk | hk <;> simp [hk]))
      · exact leadsTo_next.2 hb

theorem exec_stepEnd_inOrder {dt : Nat} (h : InOrder st mq full full s) :
    LeadsTo (InOrder st mq full full) (exec (.positioningStepCompletes dt) s) ∧
      LeadsTo (InOrder st mq full full) (exec (.positioningStepFails dt) s) ∧
      LeadsTo (InOrder st mq full full) (exec .positionTimeout s) ∧
      LeadsTo (InOrder st mq full full) (exec .marginUnknownSettle s) := by
  have hb := begin_inOrder (dt := dt) h
  simp only [exec, execPositioningStepCompletes, execPositioningStepFails, execPositionTimeout, execMarginUnknownSettle]
  refine ⟨leadsTo_next.2 (settle_inOrder (stepCompletes_inOrder hb)), leadsTo_next.2 (settle_inOrder (stepFails_inOrder hb)),
    ?_, ?_⟩
  · split
    · exact leadsTo_next.2 h
    · exact leadsTo_next.2 (settle_inOrder (stepFails_inOrder (beginAt_inOrder h)))
  · split
    · exact leadsTo_next.2 h
    · split
      · exact leadsTo_next.2 (settle_inOrder (stepCompletes_inOrder (beginAt_inOrder h)))
      · exact leadsTo_next.2 h

theorem exec_driveTimer_inOrder (h : InOrder st mq full full s) :
    LeadsTo (InOrder st mq full full) (exec .faultEpisodeTimeout s) ∧
      LeadsTo (InOrder st mq full full) (exec .indexWatchdog s) ∧ LeadsTo (InOrder st mq full full) (exec .viewSettle s) ∧
      LeadsTo (InOrder st mq full full) (exec .quietInterval s) ∧
      LeadsTo (InOrder st mq full full) (exec .withholdLimit s) := by
  have ha : ∀ t, InOrder st mq full full (beginAt t s) := fun t => beginAt_inOrder h
  simp only [exec, execFaultEpisodeTimeout, execIndexWatchdog, execViewSettle, execQuietInterval, execWithholdLimit]
  refine ⟨?_, ?_, ?_, ?_, ?_⟩
  · split
    · exact leadsTo_next.2 h
    · split
      · exact leadsTo_next.2 (settle_inOrder (judgeLost_inOrder (ha _)))
      · exact leadsTo_next.2 h
  · split
    · exact leadsTo_next.2 (settle_inOrder (judgeLost_inOrder (ha _)))
    · exact leadsTo_next.2 h
  · split
    · exact leadsTo_next.2 h
    · exact leadsTo_next.2 (ha _)
  · split
    · exact leadsTo_next.2 h
    · exact leadsTo_next.2 (settle_inOrder (quietPasses_inOrder (ha _)))
  · split
    · exact leadsTo_next.2 h
    · split
      · exact leadsTo_next.2 h
      · exact leadsTo_next.2 (settle_inOrder (limitPasses_inOrder (ha _)))

theorem exec_workTimer_inOrder {dt : Nat} (h : InOrder st mq full full s) :
    LeadsTo (InOrder st mq full full) (exec (.voteCompletes dt) s) ∧
      LeadsTo (InOrder st mq full full) (exec .workDurationReached s) ∧
      LeadsTo (InOrder st mq full full) (exec .restEnds s) ∧ LeadsTo (InOrder st mq full full) (exec .idleTimer s) := by
  have hb := begin_inOrder (dt := dt) h
  have hv : InOrder st mq full full (nextVote (begin dt s)) := nextVote_inOrder hb
  simp only [exec, execVoteCompletes, execWorkDurationReached, execRestEnds, execIdleTimer]
  refine ⟨?_, ?_, ?_, ?_⟩
  · split
    · exact leadsTo_next.2 hb
    · split
      · exact leadsTo_next.2 hv
      · split
        · exact leadsTo_next.2 hv
        · split
          · exact leadsTo_next.2 (settle_inOrder (takeOutcome_inOrder hv))
          · exact leadsTo_next.2 hv
  · split
    · exact leadsTo_next.2 (settle_inOrder (begin_inOrder (dt := workDuration s - s.drv.work) h))
    · exact leadsTo_next.2 h
  · split
    · exact leadsTo_next.2 (settle_inOrder (s := endRest (beginAt (s.drv.restStart + restDuration s) s)) (beginAt_inOrder h))
    · exact leadsTo_next.2 h
  · split
    · exact leadsTo_next.2 (begin_inOrder (dt := restDuration s - s.drv.idle) h)
    · exact leadsTo_next.2 h

/-- At power-up the map and the queue are empty and there is no operation (R201). -/
theorem powerUp_inOrder {straps : Straps} {lines : Lines} {pending : List Instr} :
    InOrder st True True True (State.poweredUp straps lines pending) where
  within := id
  ordered := id
  store _ := rfl
  map _ := List.Pairwise.nil
  queue _ := ⟨Nat.zero_le _, List.nodup_nil, List.Pairwise.nil⟩
  jobs _ _ := ⟨nofun, fun ⟨_, h, _⟩ => nomatch h⟩
  room _ := ⟨Nat.zero_le _, List.nodup_nil, nofun⟩
  claim _ := ⟨nofun, nofun⟩
  ops _ := opsFit_none nofun

/-- What is in order in a state is in order where less is asked of it. -/
theorem Coherent.less {ops mq' full' ops' : Prop} {es store c q op w p} (h : Coherent st mq full ops es store c q op w p)
    (hmq : mq' → mq) (hfull : full' → full) (hops : ops' → ops) (hwithin : ops' → full') (hordered : full' → mq') :
    Coherent st mq' full' ops' es store c q op w p where
  within := hwithin
  ordered := hordered
  store := h.store
  map hm := h.map (hmq hm)
  queue hm := h.queue (hmq hm)
  jobs hm := h.jobs (hmq hm)
  room hf := h.room (hfull hf)
  claim hf := h.claim (hfull hf)
  ops ho := h.ops (hops ho)

/-- Every command leaves map, queue, operation and store in order. -/
theorem exec_inOrder {c : Instr} (h : InOrder st mq full full s) : LeadsTo (InOrder st mq full full) (exec c s) := by
  cases hf : carriesField c with
  | true => exact exec_field_inOrder h hf
  | false =>
    cases ho : orderOf c with
    | some x => exact exec_order_inOrder ho h
    | none =>
      cases he : encodeFrame c with
      | some us =>
        obtain ⟨dt, hx⟩ := exec_service he s
        rw [hx]
        exact leadsTo_next.2 (onFrame_inOrder (begin_inOrder h) fun t hc ht => runCommand_inOrder c hc ht)
      | none =>
        obtain ⟨timeout, watchdog, settles, quiet, limit⟩ := exec_driveTimer_inOrder h
        cases c
        case powerUp =>
          exact leadsTo_next.2 (powerUp_inOrder.less (fun _ => trivial) (fun _ => trivial) (fun _ => trivial) id h.ordered)
        case position | head | returnOrder | margin | targetRead | targetWrite | clear => cases ho
        case writeFieldFull | commandFrameRefused => cases hf
        case readGate => exact exec_readGate_inOrder h
        case writeGate => exact exec_writeGate_inOrder h
        case readGateFalls =>
          obtain ⟨kept, -, -⟩ := exec_gateFalls_inOrder (tail := ⟨0, []⟩) h
          exact kept
        case writeGateFalls =>
          obtain ⟨-, kept, -⟩ := exec_gateFalls_inOrder (dt := 0) h
          exact kept
        case writeClockTimeout =>
          obtain ⟨-, -, kept⟩ := exec_gateFalls_inOrder (dt := 0) h
          exact kept
        case driveMatch =>
          obtain ⟨kept, -, -, -⟩ := exec_mark_inOrder h
          exact kept
        case generatedMatch =>
          obtain ⟨-, kept, -, -⟩ := exec_mark_inOrder (dt := 0) h
          exact kept
        case generatedIndex =>
          obtain ⟨-, -, kept, -⟩ := exec_mark_inOrder (dt := 0) h
          exact kept
        case driveIndex =>
          obtain ⟨-, -, -, kept⟩ := exec_mark_inOrder h
          exact kept
        case driveReadyFalls =>
          obtain ⟨kept, -, -, -, -⟩ := exec_level_inOrder (level := true) h
          exact kept
        case driveReadyRises =>
          obtain ⟨-, kept, -, -, -⟩ := exec_level_inOrder (level := true) h
          exact kept
        case driveFaultRises =>
          obtain ⟨-, -, kept, -, -⟩ := exec_level_inOrder (level := true) h
          exact kept
        case driveFaultFalls =>
          obtain ⟨-, -, -, kept, -⟩ := exec_level_inOrder (level := true) h
          exact kept
        case driveProtectChanges =>
          obtain ⟨-, -, -, -, kept⟩ := exec_level_inOrder h
          exact kept
        case captureFull =>
          obtain ⟨kept, -, -⟩ := exec_capture_inOrder h
          exact kept
        case readClockTimeout =>
          obtain ⟨-, kept, -⟩ := exec_capture_inOrder (rate := 0) (field := []) h
          exact kept
        case servedTransferEnds =>
          obtain ⟨-, -, kept⟩ := exec_capture_inOrder (rate := 0) (field := []) h
          exact kept
        case positioningStepCompletes =>
          obtain ⟨kept, -, -, -⟩ := exec_stepEnd_inOrder h
          exact kept
        case positioningStepFails =>
          obtain ⟨-, kept, -, -⟩ := exec_stepEnd_inOrder h
          exact kept
        case positionTimeout =>
          obtain ⟨-, -, kept, -⟩ := exec_stepEnd_inOrder (dt := 0) h
          exact kept
        case marginUnknownSettle =>
          obtain ⟨-, -, -, kept⟩ := exec_stepEnd_inOrder (dt := 0) h
          exact kept
        case faultEpisodeTimeout => exact timeout
        case indexWatchdog => exact watchdog
        case viewSettle => exact settles
        case quietInterval => exact quiet
        case withholdLimit => exact limit
        case voteCompletes =>
          obtain ⟨kept, -, -, -⟩ := exec_workTimer_inOrder h
          exact kept
        case workDurationReached =>
          obtain ⟨-, kept, -, -⟩ := exec_workTimer_inOrder (dt := 0) h
          exact kept
        case restEnds =>
          obtain ⟨-, -, kept, -⟩ := exec_workTimer_inOrder (dt := 0) h
          exact kept
        case idleTimer =>
          obtain ⟨-, -, -, kept⟩ := exec_workTimer_inOrder (dt := 0) h
          exact kept
        all_goals cases he

/-- A step of the block is its front command's, or none. -/
theorem step_inOrder {t : State} (h : InOrder st mq full full s) (hstep : step s = .next t) :
    InOrder st mq full full t := by
  unfold step at hstep
  split at hstep
  · cases hstep
    exact h
  next i rest _ => exact exec_inOrder (s := { s with pending := rest }) h t hstep

/-! ### The obligations -/

/-- Settles O17: map, queue and operation are in order after every step from a state where they are. -/
theorem mapAndQueueAreKept : Obligations.MapAndQueueAreKept := by
  intro s t hmap hqueue hjobs hstep
  have h := step_inOrder (inOrder_of (full := RoomOk s ∧ ClaimOk s ∧ OperationOk s) hmap hqueue hjobs id) hstep
  obtain ⟨hmap', hqueue', hjobs', hfull⟩ := h.invariants
  exact ⟨hmap', hqueue', hjobs', fun hroom hclaim hop => hfull ⟨hroom, hclaim, hop⟩⟩

/-- Settles O18: whatever the state, the store alone is in order after every step from one where it is. -/
theorem storeFormIsKept : Obligations.StoreFormIsKept := by
  intro s t hwf hstep
  have h : InOrder True False False False s :=
    ⟨id, id, fun _ => hwf, False.elim, False.elim, False.elim, False.elim, False.elim, False.elim⟩
  exact (step_inOrder h hstep).store trivial

end Sys2Proof.Machine
end

section
/-!
PROOFS. The commands that report the queue, the map and an image (R56, R198 to R200): each answers in the state it finds.
-/

namespace Sys2Proof.Machine

variable {s t : State} {dt tag : Nat}

/-! ### A command's answer -/

/-- Where a command frame can arrive a command acts on the state with its written field ended (R179). -/
theorem onFrame_accepted (h : acceptsFrame s = true) (act : State → State) :
    onFrame act (begin dt s) = act (fieldEnds (begin dt s)) := by
  obtain ⟨work, idle, hbegin⟩ := begin_changes dt s
  rw [hbegin]
  exact if_pos h

theorem answer_fieldEnds (r : Reply) : answer tag (fieldEnds t, r) =
    answered tag r.result.code (padTo 5 r.header ++ r.body) t := rfl

/-- A command whose reply sets nothing off (R178, R182). -/
theorem exec_replies {c : Instr} {reply : State → State × Reply} {r : Reply} (haccepts : acceptsFrame s = true)
    (hexec : exec c s = .next (onFrame (fun s => answer tag (reply s)) (begin dt s)))
    (hreply : reply (fieldEnds (begin dt s)) = (fieldEnds t, r)) :
    exec c s = .next (answered tag r.result.code (padTo 5 r.header ++ r.body) t) := by
  rw [hexec, onFrame_accepted haccepts, hreply, answer_fieldEnds]

/-- A command that may set something off, and finds nothing due. -/
theorem exec_settles {c : Instr} {reply : State → State × Reply} {r : Reply} (haccepts : acceptsFrame s = true)
    (hexec : exec c s = .next (onFrame (fun s => settle (answer tag (reply s))) (begin dt s)))
    (hreply : reply (fieldEnds (begin dt s)) = (fieldEnds t, r)) (hdue : NothingDue t) :
    exec c s = .next (answered tag r.result.code (padTo 5 r.header ++ r.body) t) := by
  rw [hexec, onFrame_accepted haccepts, hreply, answer_fieldEnds, settle_still (nothingDue_answered hdue)]

/-! ### Sector addresses -/

section
variable {g : Geometry} {u0 u1 : Nat} {act : Addr → State × Reply}

theorem addrOf_real (h : g.real ⟨u0, u1 / 64, u1 % 64⟩ = true) : g.addrOf u0 u1 = some ⟨u0, u1 / 64, u1 % 64⟩ := if_pos h

theorem addrOf_unreal (h : g.real ⟨u0, u1 / 64, u1 % 64⟩ = false) : g.addrOf u0 u1 = none := by
  simp [Geometry.addrOf, h]

theorem addressed_none (h : s.svc.geometry = none) : addressed u0 u1 s act = (s, refuse .state) := by
  simp only [addressed, h]

theorem addressed_unreal (hg : s.svc.geometry = some g) (h : g.real ⟨u0, u1 / 64, u1 % 64⟩ = false) :
    addressed u0 u1 s act = (s, refuse .range) := by
  simp only [addressed, hg, addrOf_unreal h]

theorem addressed_real (hg : s.svc.geometry = some g) (h : g.real ⟨u0, u1 / 64, u1 % 64⟩ = true) :
    addressed u0 u1 s act = act ⟨u0, u1 / 64, u1 % 64⟩ := by
  simp only [addressed, hg, addrOf_real h]

/-! ### READ MAP -/

theorem readMapReply_none (h : s.svc.geometry = none) : readMapReply u0 u1 s = (s, refuse .state) := by
  simp only [readMapReply, h]

theorem readMapReply_unreal (hg : s.svc.geometry = some g) (h : g.real ⟨u0, u1 / 64, u1 % 64⟩ = false) :
    readMapReply u0 u1 s = (s, refuse .range) := by
  simp only [readMapReply, hg, addrOf_unreal h]

/-- The entries READ MAP finds from an address on (R56). -/
abbrev entriesFrom (a : Addr) (s : State) : List Entry := s.map.entries.filter fun e => !e.addr.lt a

section
variable (hg : s.svc.geometry = some g) (hreal : g.real ⟨u0, u1 / 64, u1 % 64⟩ = true) {found shown : List Entry}
  (hfound : entriesFrom ⟨u0, u1 / 64, u1 % 64⟩ s = found) (hshown : found.take (recordsHeld s.straps) = shown)
include hg hreal hfound hshown

/-- Where the body holds every entry found there is no next start (R199). -/
theorem readMapReply_all (h : found.length ≤ recordsHeld s.straps) :
    readMapReply u0 u1 s = (s, ⟨.done, [shown.length, 0, absentUnit, absentUnit], shown.flatMap (entryUnits s)⟩) := by
  simp only [readMapReply, hg, addrOf_real hreal, hfound, hshown, List.drop_eq_nil_of_le h]
  rfl

/-- With more entries than the body holds, the next start follows the last one shown (R199). -/
theorem readMapReply_more {e : Entry} (h : recordsHeld s.straps < found.length)
    (hlast : (shown.getLast?).map Entry.addr = some e.addr) {next : Addr} (hnext : g.successor e.addr = some next) :
    readMapReply u0 u1 s = (s, ⟨.done, [shown.length, 1] ++ addrUnits next, shown.flatMap (entryUnits s)⟩) := by
  obtain ⟨x, hx, haddr⟩ := Option.map_eq_some_iff.1 hlast
  have hrest : found.drop (recordsHeld s.straps) ≠ [] := by simpa using h
  simp only [readMapReply, hg, addrOf_real hreal, hfound, hshown, nextStart, if_neg hrest, hx, Option.bind_some, haddr,
    hnext, decide_eq_true hrest]
  rfl

end

end

/-! ### EXPORT PAGE -/

section
variable {a : Addr} {n : Nat}

theorem exportImage_missing (h : entryOf s a = none ∨ ∃ o, entryOf s a = some ⟨a, o, .pending⟩) :
    exportImage a n s = (s, refuse .notFound) := by
  rcases h with h | ⟨o, h⟩ <;> simp only [exportImage, h, EntryBody.slot?]

theorem exportImage_held {e : Entry} (h : entryOf s a = some e) (hb : e.body ≠ .pending) :
    exportImage a n s = (s, ⟨.done, [e.body.stateCode, e.body.methodCode, n],
      pageUnits s.straps n (imageUnits (readSlot s (e.body.slot?.getD 0)))⟩) := by
  cases hbody : e.body with
  | pending => exact absurd hbody hb
  | settled kind reads weak k => simp only [exportImage, h, hbody, EntryBody.slot?, Option.getD_some]

end

/-- A PENDING entry's counts are its job's (R39). -/
theorem entryCounts_ofJob {e : Entry} (h : e.body = .pending) :
    entryCounts s e = ((jobOf s e.addr).map fun j => (j.readsSpent, j.lastWeak)).getD (0, none) := by
  simp only [entryCounts, h]
  cases jobOf s e.addr <;> rfl

/-- Settles O49: each reply by its order of judgement, its records as R204 and R209 lay them out. -/
theorem mapAndQueueAreReported : Obligations.MapAndQueueAreReported := by
  intro dt tag n u0 u1 g e s haccepts
  obtain ⟨work, idle, hbegin⟩ := begin_changes dt s
  rw [hbegin]
  intro b room depth a real jobs found shown origin weak job entry
  have replies {c : Instr} {reply : State → State × Reply} {r : Reply}
      (hexec : exec c s = .next (onFrame (fun s => answer tag (reply s)) (begin dt s)))
      (hreply : reply (fieldEnds b) = (fieldEnds b, r)) :
      exec c s = .next (answered tag r.result.code (padTo 5 r.header ++ r.body) b) :=
    exec_replies haccepts hexec (by rw [hbegin]; exact hreply)
  have hjob : Job.units = job := by
    funext x
    obtain ⟨addr, cls, ladder, rung, reads, spent, failures, state, lastWeak, org, ambiguous⟩ := x
    cases cls <;> cases state <;> cases lastWeak <;> cases org <;> rfl
  have hweak : ∀ w, weakCode4 w = weak 14 w := fun w => by cases w <;> rfl
  have horigin : ∀ o : Origin, o.code = origin o := fun o => by cases o <;> rfl
  have hentry : entryUnits (fieldEnds b) = entry := by
    funext x
    obtain ⟨addr, org, body⟩ := x
    cases body with
    | pending =>
      simp only [entryUnits, hweak, horigin, entryCounts_ofJob (s := fieldEnds b) (e := ⟨addr, org, .pending⟩) rfl]
      rfl
    | settled kind reads w k =>
      simp only [entryUnits, hweak, horigin, entry]
      rcases kind with (_ | _ | _ | _) | _ | _ <;> rfl
  refine ⟨fun hn => ?_, fun hlow hhigh => ?_, fun hg => ⟨?_, ?_⟩, fun hg => ⟨fun hreal => ⟨?_, ?_⟩,
    fun hreal => ⟨fun hall => ?_, fun hmore hlast hsucc => ?_, fun hn => ?_, fun hn hmissing => ?_,
      fun hn he hb => ?_⟩⟩⟩
  · exact replies (reply := readQueueReply n) (r := refuse .range) rfl (if_pos hn)
  · have hn : ¬(n = 0 ∨ 32 < n) := by omega
    by_cases hdeep : depth < n
    · rw [if_pos hdeep]
      exact replies (reply := readQueueReply n) (r := refuse .notFound) rfl ((if_neg hn).trans (if_pos hdeep))
    · rw [if_neg hdeep, ← hjob]
      exact replies (reply := readQueueReply n) rfl ((if_neg hn).trans (if_neg hdeep))
  · exact replies (reply := readMapReply u0 u1) rfl (readMapReply_none hg)
  · have hreply : exportPageReply u0 u1 n (fieldEnds b) = (fieldEnds b, refuse .state) :=
      (if_neg (by rw [show (fieldEnds b).svc.geometry = none from hg]; simp)).trans (addressed_none hg)
    exact replies (reply := exportPageReply u0 u1 n) rfl hreply
  · exact replies (reply := readMapReply u0 u1) rfl (readMapReply_unreal hg hreal)
  · have hreply : exportPageReply u0 u1 n (fieldEnds b) = (fieldEnds b, refuse .range) := by
      rw [exportPageReply, addressed_unreal (s := fieldEnds b) hg hreal, ite_self]
    exact replies (reply := exportPageReply u0 u1 n) rfl hreply
  · rw [← hentry]
    exact replies (reply := readMapReply u0 u1) rfl (readMapReply_all (s := fieldEnds b) hg hreal rfl rfl hall)
  · intro next
    obtain ⟨x, hx⟩ := Option.ne_none_iff_exists'.1 hsucc
    have hnext : next = x := by simp only [next, hx, Option.getD_some]
    rw [← hentry, hnext]
    exact replies (reply := readMapReply u0 u1) rfl (readMapReply_more (s := fieldEnds b) hg hreal rfl rfl hmore hlast hx)
  · exact replies (reply := exportPageReply u0 u1 n) (r := refuse .range) rfl
      (if_pos ⟨by rw [show (fieldEnds b).svc.geometry = some g from hg]; rfl, hn⟩)
  · have hreply : exportPageReply u0 u1 n (fieldEnds b) = (fieldEnds b, refuse .notFound) :=
      (if_neg (by omega)).trans ((addressed_real (s := fieldEnds b) hg hreal).trans
        (exportImage_missing (hmissing.imp_right fun h => ⟨_, h⟩)))
    exact replies (reply := exportPageReply u0 u1 n) rfl hreply
  · have hreply : exportPageReply u0 u1 n (fieldEnds b) = exportImage a n (fieldEnds b) :=
      (if_neg (by omega)).trans (addressed_real (s := fieldEnds b) hg hreal)
    exact replies (reply := exportPageReply u0 u1 n) rfl (hreply.trans (exportImage_held he hb))

end Sys2Proof.Machine
end

section
/-!
PROOFS. RELEASE ENTRY (R54, R196), while the controller holds the drive: nothing is due behind it.
-/

namespace Sys2Proof.Machine

variable {s : State} {a : Addr}

/-! ### The sweep's notice and the slot given back -/

/-- The sweep after a notice (R157): a blocked one waits again, and neither it nor a sweeping one keeps its cause. -/
def noticed (w : Sweep) : Sweep :=
  { w with
    state := if w.state = .blocked then .waiting else w.state
    cause := if w.state = .blocked ∨ w.state = .sweeping then none else w.cause }

theorem noticeSweep_noticed (s : State) : noticeSweep s = { s with sweep := noticed s.sweep } := by
  by_cases hb : s.sweep.state = .blocked
  · simp [noticeSweep, noticed, hb]
  · rw [noticeSweep_eq hb]
    simp [noticed, hb]

theorem noticed_twice (w : Sweep) : noticed (noticed w) = noticed w := by
  by_cases hb : w.state = .blocked
  · simp [noticed, hb]
  · by_cases hs : w.state = .sweeping <;> simp [noticed, hb, hs]

/-- An entry leaves the map, its slot, if it has one, the store (R40). -/
theorem dropEntry_eq {e : Entry} (he : entryOf s a = some e) : dropEntry a s = { s with
    map.entries := s.map.entries.filter fun x => decide (x.addr ≠ a)
    map.store := s.map.store.filter fun x => decide (some x.1 ≠ e.body.slot?)
    sweep := noticed s.sweep } := by
  cases hbody : e.body with
  | pending => simp [dropEntry, he, hbody, noticeSweep_noticed, EntryBody.slot?]
  | settled kind n w k => simp [dropEntry, he, hbody, noticeSweep_noticed, EntryBody.slot?, dropSlot]

/-! ### The job of a released sector -/

theorem cancelJob_none (h : jobOf s a = none) : cancelJob a s = s := by simp only [cancelJob, h]

theorem withoutJob_of_jobOf_none (h : jobOf s a = none) : withoutJob a s.seq.queue = s.seq.queue :=
  withoutJob_of_not_mem fun j hj => by simpa using List.find?_eq_none.1 h j hj

/-- The votes that a release marks: those of a job it cancels (R116). -/
theorem markedVotes_if (p : Prop) [Decidable p] (a : Addr) (g : Engine) :
    (if p then markedVotes a g else g) = ⟨g.inFlight.map fun v => if v.owner = a ∧ p then { v with discard := true } else v,
      g.waiting.map fun v => if v.owner = a ∧ p then { v with discard := true } else v⟩ := by
  by_cases hp : p <;> simp [hp, markedVotes]

/-- A sector released while its job is not the first (R54, R80, R157). -/
theorem released_behind {e : Entry} (he : entryOf s a = some e) (hbehind : (headJob s).map Job.addr ≠ some a) :
    cancelJob a (dropEntry a s) = { s with
      map.entries := s.map.entries.filter fun x => decide (x.addr ≠ a)
      map.store := s.map.store.filter fun x => decide (some x.1 ≠ e.body.slot?)
      seq.queue := withoutJob a s.seq.queue
      eng := if (jobOf s a).isSome = true then markedVotes a s.eng else s.eng
      sweep := noticed s.sweep } := by
  rw [dropEntry_eq he]
  cases hj : jobOf s a with
  | none =>
    rw [cancelJob_none (by exact hj), withoutJob_of_jobOf_none hj]
    rfl
  | some j =>
    rw [cancelJob_eq (by exact hj), reorder_withoutJob_behind (by exact hbehind), noticeSweep_noticed]
    simp [noticed_twice]

theorem releaseEntryReply_held {g : Geometry} {u0 u1 : Nat} {e : Entry} (hg : s.svc.geometry = some g)
    (hreal : g.real ⟨u0, u1 / 64, u1 % 64⟩ = true) (he : entryOf s ⟨u0, u1 / 64, u1 % 64⟩ = some e) :
    releaseEntryReply u0 u1 s =
      (cancelJob ⟨u0, u1 / 64, u1 % 64⟩ (dropEntry ⟨u0, u1 / 64, u1 % 64⟩ s), doneWith [0]) := by
  rw [releaseEntryReply, addressed_real hg hreal, he]

/-- Settles O46: the refusals by their order, and the release by what it takes out of the map, the store and the queue. -/
theorem releaseEntryReleases : Obligations.ReleaseEntryReleases := by
  intro dt tag u0 u1 g e s haccepts
  obtain ⟨work, idle, hbegin⟩ := begin_changes dt s
  rw [hbegin]
  intro b hdue hholder a real after
  have settles {r : Reply} {t : State} (hreply : releaseEntryReply u0 u1 (fieldEnds b) = (fieldEnds t, r))
      (ht : NothingDue t) : after (answered tag r.result.code (padTo 5 r.header ++ r.body) t) :=
    exec_settles (reply := releaseEntryReply u0 u1) haccepts rfl (by rw [hbegin]; exact hreply) ht
  refine ⟨fun hg => ?_, fun hg hreal => ?_, fun hg hreal he => ?_, fun hg hreal he hbehind => ?_⟩
  · exact settles (addressed_none hg) hdue
  · exact settles (addressed_unreal (s := fieldEnds b) hg hreal) hdue
  · have hreply : releaseEntryReply u0 u1 (fieldEnds b) = (fieldEnds b, refuse .notFound) := by
      rw [releaseEntryReply, addressed_real (s := fieldEnds b) hg hreal, show entryOf (fieldEnds b) a = none from he]
    exact settles hreply hdue
  · rw [← markedVotes_if]
    refine settles ((releaseEntryReply_held (s := fieldEnds b) hg hreal he).trans
      (congrArg (·, doneWith [0]) (released_behind (s := fieldEnds b) he hbehind))) ?_
    exact nothingDue_of_eq hdue (nextAct_congr_controller hholder rfl rfl rfl rfl)

end Sys2Proof.Machine
end

section
/-!
PROOFS. QUEUE SECTOR (R52, R62, R196), while the controller holds the drive: the new job joins the queue's tail and stands
at its first rung start.
-/

namespace Sys2Proof.Machine

variable {s : State} {a : Addr}

/-! ### A job at the queue's tail -/

theorem jobOf_append_none {q : List Job} {j : Job} (hnew : q.find? (fun x => decide (x.addr = j.addr)) = none) :
    (q ++ [j]).find? (fun x => decide (x.addr = j.addr)) = some j := by
  rw [List.find?_append, hnew]
  simp

theorem map_tail_only {f : Job → Job} {q : List Job} {j : Job} (h : ∀ x ∈ q, x.addr ≠ j.addr) :
    (q ++ [j]).map (fun x => if x.addr = j.addr then f x else x) = q ++ [f j] := by
  have hq : q.map (fun x => if x.addr = j.addr then f x else x) = q :=
    (List.map_congr_left (g := id) fun x hx => if_neg (h x hx)).trans (List.map_id _)
  rw [List.map_append, hq, List.map_singleton, if_pos rfl]

theorem not_queued_of_jobOf (h : jobOf s a = none) : ∀ j ∈ s.seq.queue, j.addr ≠ a := fun j hj => by
  simpa using List.find?_eq_none.1 h j hj

section
variable {j : Job} {first : Nat} (hindex : j.rungIndex = 0) (hreads : j.readsDone = 0)
  (hfirst : ((ladderOf s j.ladder).rungs.findIdx fun g => !isWorn s j.addr.head || decide (g.offset = .centre)) = first)
  (hrung : first < (ladderOf s j.ladder).rungs.length)
include hindex hreads hfirst hrung

/-- A job at the tail arrives at the first rung its head leaves it (R91, R94). -/
theorem arriveRung_tail {q : List Job} (hq : s.seq.queue = q ++ [j]) (hnew : ∀ x ∈ q, x.addr ≠ j.addr) :
    arriveRung j.addr s = { s with seq.queue := q ++ [{ j with rungIndex := first }] } := by
  have hjob : jobOf s j.addr = some j := by
    rw [jobOf, hq]
    exact jobOf_append_none (List.find?_eq_none.2 fun x hx => by simpa using hnew x hx)
  have hskip : skipWorn (isWorn s j.addr.head) (ladderOf s j.ladder).rungs (ladderOf s j.ladder).rungs.length
      j.rungIndex = first := by
    rw [hindex]
    exact (skipWorn_eq_findIdx _ [] _).trans (by simpa using hfirst)
  have hplace : (if first = j.rungIndex then s
      else updateJob j.addr (fun j => { j with rungIndex := first, readsDone := 0 }) s) =
      { s with seq.queue := q ++ [{ j with rungIndex := first }] } := by
    split
    next h => rw [h, ← hq]
    next => rw [updateJob, hq, map_tail_only hnew, ← hreads]
  simp only [arriveRung, hjob, hskip, Nat.not_le.2 hrung, if_false]
  exact hplace

/-- A BACKGROUND job joins the tail at its first rung start; its rung is the working rung where it is the head (R60, R62,
R90; log 20). -/
theorem enqueueJob_background (hcls : j.cls = .background) (hnew : jobOf s j.addr = none) :
    enqueueJob j s = { s with
      seq.queue := s.seq.queue ++ [{ j with rungIndex := first }]
      seq.workingRung := if s.seq.queue = [] then (ladderOf s j.ladder).rungs[first]? else s.seq.workingRung } := by
  by_cases hq : s.seq.queue = []
  · rw [if_pos hq, enqueueJob_empty hq hindex hreads hfirst hrung, hq]
    rfl
  · obtain ⟨old, rest, hcons⟩ := List.exists_cons_of_ne_nil hq
    have hothers := not_queued_of_jobOf hnew
    have hold : old.addr ≠ j.addr := hothers old (by rw [hcons]; exact List.mem_cons_self)
    have hjoin : reorder (joinGroup j) s = { s with seq.queue := s.seq.queue ++ [j] } := by
      simp [reorder, joinGroup, hcls, headJob, hcons]
    rw [if_neg hq, enqueueJob, hjoin, startRung,
      arriveRung_tail (s := { s with seq.queue := s.seq.queue ++ [j] }) hindex hreads hfirst hrung rfl hothers]
    simp only [headJob, hcons, List.cons_append, List.head?_cons, if_neg hold]

end

/-! ### An entry by its state code (R203) -/

section
variable {b : EntryBody}

theorem pending_of_stateCode (h : b.stateCode = 1) : b = .pending := by
  cases b with
  | pending => rfl
  | settled kind n w k => cases kind <;> cases h

theorem settled_of_stateCode (h : b.stateCode ≠ 1) : ∃ kind n w k, b = .settled kind n w k := by
  cases b with
  | pending => exact absurd rfl h
  | settled kind n w k => exact ⟨kind, n, w, k, rfl⟩

theorem lost_of_stateCode (h : b.stateCode = 3) : ∃ n w k, b = .settled .lost n w k := by
  obtain ⟨kind, n, w, k, rfl⟩ := settled_of_stateCode (b := b) (by omega)
  cases kind with
  | lost => exact ⟨n, w, k, rfl⟩
  | recovered m => cases h
  | overlay => cases h

theorem image_of_stateCode (h : b.stateCode = 2 ∨ b.stateCode = 4) :
    ∃ kind n w k, b = .settled kind n w k ∧ (kind = .overlay ∨ ∃ m, kind = .recovered m) := by
  obtain ⟨kind, n, w, k, rfl⟩ := settled_of_stateCode (b := b) (by omega)
  refine ⟨kind, n, w, k, rfl, ?_⟩
  cases kind with
  | lost => simp [EntryBody.stateCode] at h
  | recovered m => exact .inr ⟨m, rfl⟩
  | overlay => exact .inl rfl

end

/-! ### QUEUE SECTOR's answers -/

theorem refusalOf_full (he : entryOf s a = none) (hc : s.map.claim.map Claim.addr ≠ some a)
    (hfull : freeEntries s = 0 ∨ 32 ≤ s.seq.queue.length) : ∃ cause, refusalOf s a = some cause := by
  unfold refusalOf
  rw [if_neg (by simp [he, hc])]
  split
  · exact ⟨_, rfl⟩
  next hfree => exact ⟨_, if_pos (hfull.resolve_left hfree)⟩

theorem refusalOf_met (he : entryOf s a = none) (hc : s.map.claim.map Claim.addr ≠ some a) (hfree : 0 < freeEntries s)
    (hroom : s.seq.queue.length < 32) : refusalOf s a = none := by
  simp [refusalOf, he, hc, hfree.ne', Config.queueRoom, Nat.not_le.2 hroom]

theorem entryStateCode_of {e : Entry} (h : entryOf s a = some e) : entryStateCode s a = e.body.stateCode := by
  simp only [entryStateCode, h]

/-- The sector's entry among those made PENDING again. -/
theorem findEntry_pendingAgain {es : List Entry} {e : Entry} (he : findEntry es a = some e) :
    findEntry (pendingAgain a es) a = some ⟨a, .service, .pending⟩ := by
  have haddr : ∀ x : Entry, (if x.addr = a then ⟨a, .service, .pending⟩ else x).addr = x.addr := fun x => by
    split
    next hx => exact hx.symm
    · rfl
  rw [findEntry, pendingAgain, List.find?_map]
  have hsame : ((fun e : Entry => decide (e.addr = a)) ∘ fun e : Entry => if e.addr = a then ⟨a, .service, .pending⟩ else e) =
      fun e => decide (e.addr = a) := funext fun x => by simp [haddr]
  rw [hsame, show es.find? (fun e => decide (e.addr = a)) = some e from he, Option.map_some, if_pos (addr_of_findEntry he)]

section
variable {first : Nat}
  (hfirst : ((ladderOf s (chooseLadder s a)).rungs.findIdx fun r => !isWorn s a.head || decide (r.offset = .centre)) = first)
  (hrung : first < (ladderOf s (chooseLadder s a)).rungs.length) (hnew : jobOf s a = none)
include hfirst hrung hnew

/-- The state with a sector's BACKGROUND job at the tail (R52, R62). -/
abbrev withTailJob (a : Addr) (first : Nat) (es : List Entry) (store : List (Nat × List Byte)) (s : State) : State :=
  { s with
    map.entries := es
    map.store := store
    seq.queue := s.seq.queue ++ [⟨a, .background, chooseLadder s a, first, 0, 0, 0, .waiting, none, .service, false⟩]
    seq.workingRung :=
      if s.seq.queue = [] then (ladderOf s (chooseLadder s a)).rungs[first]? else s.seq.workingRung }

/-- A sector without an entry gets a PENDING one and a job (R45, R52). -/
theorem queueEntry_new (he : entryOf s a = none) (hc : s.map.claim.map Claim.addr ≠ some a) (hfree : 0 < freeEntries s)
    (hroom : s.seq.queue.length < 32) :
    queueEntry a s = (withTailJob a first (insertEntry ⟨a, .service, .pending⟩ s.map.entries) s.map.store s,
      doneWith [1, s.seq.queue.length + 1]) := by
  have hadmit : admitSector a .background .service s =
      withTailJob a first (insertEntry ⟨a, .service, .pending⟩ s.map.entries) s.map.store s := by
    rw [admitSector, if_neg (by simp [he, hc])]
    exact enqueueJob_background (s := addEntry ⟨a, .service, .pending⟩ s) (j := newJob s a .background .service) rfl rfl
      hfirst hrung rfl hnew
  have hentry : entryOf (withTailJob a first (insertEntry ⟨a, .service, .pending⟩ s.map.entries) s.map.store s) a =
      some ⟨a, .service, .pending⟩ :=
    (findEntry_insertEntry (e := ⟨a, .service, .pending⟩) he a).trans (if_pos rfl)
  simp only [queueEntry, he, refusalOf_met he hc hfree hroom, hadmit, queued, entryStateCode_of hentry, List.length_append]
  rfl

/-- A LOST sector becomes PENDING again and gives its slot back (R52). -/
theorem queueEntry_lost {e : Entry} {n k : Nat} {w : Option Nat} (he : entryOf s a = some e)
    (hb : e.body = .settled .lost n w k) (hroom : s.seq.queue.length < 32) :
    queueEntry a s = (withTailJob a first (pendingAgain a s.map.entries) (dropSlot k s.map.store) s,
      doneWith [1, s.seq.queue.length + 1]) := by
  have hqueue : requeue a k s = withTailJob a first (pendingAgain a s.map.entries) (dropSlot k s.map.store) s :=
    enqueueJob_background (s := { s with map.entries := pendingAgain a s.map.entries, map.store := dropSlot k s.map.store })
      (j := newJob s a .background .service) rfl rfl hfirst hrung rfl hnew
  have hentry : entryOf (withTailJob a first (pendingAgain a s.map.entries) (dropSlot k s.map.store) s) a =
      some ⟨a, .service, .pending⟩ := findEntry_pendingAgain he
  simp only [queueEntry, he, hb, if_neg (show ¬Config.queueRoom ≤ s.seq.queue.length from Nat.not_le.2 hroom), hqueue, queued,
    entryStateCode_of hentry, List.length_append]
  rfl

end

/-- Settles O45: the refusals in their order, then the sector by its entry. -/
theorem queueSectorQueues : Obligations.QueueSectorQueues := by
  intro dt tag u0 u1 g e s haccepts
  obtain ⟨work, idle, hbegin⟩ := begin_changes dt s
  rw [hbegin]
  intro b hdue hholder hg a real after depth rungs first job working
  have settles {r : Reply} {t : State} (hreply : queueSectorReply u0 u1 (fieldEnds b) = (fieldEnds t, r))
      (ht : NothingDue t) : after (answered tag r.result.code (padTo 5 r.header ++ r.body) t) :=
    exec_settles (reply := queueSectorReply u0 u1) haccepts rfl (by rw [hbegin]; exact hreply) ht
  have still {t : State} (hdrv : t.drv = b.drv) (hsvc : t.svc = b.svc) (hctl : t.ctl = b.ctl) : NothingDue t :=
    nothingDue_of_eq hdue (nextAct_congr_controller hholder hdrv hsvc (by rw [hctl])
      (by simp only [awaitsDrive, hctl]))
  refine ⟨fun hm => ?_, fun hm hreal => ?_, fun hm hreal => ⟨fun he hc => ⟨fun hfull => ?_, fun hfree hroom hnew hrung => ?_⟩,
    fun he => ⟨fun hcode => ?_, fun hcode => ?_, fun hcode hfull => ?_, fun hcode hroom hnew hrung => ?_⟩⟩⟩
  · exact settles (r := refuse .state) (if_pos (decide_eq_true hm)) hdue
  · exact settles ((if_neg (by simpa [isPassive] using hm)).trans (addressed_unreal (s := fieldEnds b) hg hreal)) hdue
  all_goals
    have hreply : queueSectorReply u0 u1 (fieldEnds b) = queueEntry a (fieldEnds b) :=
      (if_neg (by simpa [isPassive] using hm)).trans (addressed_real (s := fieldEnds b) hg hreal)
  · obtain ⟨cause, hrefused⟩ := refusalOf_full (s := fieldEnds b) he hc hfull
    refine settles (r := refuse .full) (hreply.trans ?_) hdue
    simp only [queueEntry, show entryOf (fieldEnds b) a = none from he, hrefused]
  · exact settles (t := withTailJob a first (insertEntry ⟨a, .service, .pending⟩ s.map.entries) s.map.store b)
      (hreply.trans (queueEntry_new (s := fieldEnds b) rfl hrung hnew he hc hfree hroom)) (still rfl rfl rfl)
  all_goals
    have he' : entryOf (fieldEnds b) a = some e := he
  · have hbody := pending_of_stateCode hcode
    refine settles (r := doneWith [1, depth]) (hreply.trans ?_) hdue
    simp only [queueEntry, he', hbody, queued, entryStateCode_of he']
    rfl
  · refine settles (r := refuse .inUse) (hreply.trans ?_) hdue
    obtain ⟨kind, n, w, k, hbody, hk⟩ := image_of_stateCode hcode
    rcases hk with rfl | ⟨m, rfl⟩ <;> simp only [queueEntry, he', hbody]
  all_goals obtain ⟨n, w, k, hbody⟩ := lost_of_stateCode hcode
  · refine settles (r := refuse .full) (hreply.trans ?_) hdue
    simp only [queueEntry, he', hbody]
    exact if_pos hfull
  · have hstore : (s.map.store.filter fun x => decide (some x.1 ≠ e.body.slot?)) = dropSlot k s.map.store := by
      rw [hbody, dropSlot]
      simp [EntryBody.slot?]
    rw [hstore]
    exact settles (t := withTailJob a first (pendingAgain a s.map.entries) (dropSlot k s.map.store) b)
      (hreply.trans (queueEntry_lost (s := fieldEnds b) rfl hrung hnew he hbody hroom)) (still rfl rfl rfl)

end Sys2Proof.Machine
end

section
/-!
PROOFS. IMPORT PAGE (R44, R53, R197): the pages staged, and the image that the last one completes, by its sector's entry.
-/

namespace Sys2Proof.Machine

variable {s : State} {a : Addr}

/-! ### The units of a page -/

/-- A page's units as received are its image units (R202). -/
theorem map_lowUnit_of_units {us : List Nat} (h : ∀ u ∈ us, u < 4096) : us.map lowUnit = us :=
  (List.map_congr_left (g := id) fun u hu => Nat.mod_eq_of_lt (h u hu)).trans (List.map_id _)

theorem bodyUnits_ge (st : Straps) : 18 ≤ bodyUnits st := by
  rw [bodyUnits, Straps.data]
  cases st.words <;> decide

theorem padTo_of_le {n : Nat} {us : List Nat} (h : n ≤ us.length) : padTo n us = us.take n := by
  simp [padTo, Nat.sub_eq_zero_of_le h]

section
variable {st : Straps} {us : List Nat} {page : Nat} (hlen : us.length = st.data - 8) (hunits : ∀ u ∈ us, u < 4096)
include hlen hunits

theorem importUnits_whole (hp : page ≠ 2) : importUnits st page us = us := by
  have hbody : bodyUnits st = us.length := hlen.symm
  rw [importUnits, if_neg hp, padTo_of_le (Nat.le_of_eq hbody), hbody, List.take_length, map_lowUnit_of_units hunits]

theorem importUnits_last : importUnits st 2 us = us.take 18 := by
  have hlong : 18 ≤ us.length := hlen ▸ bodyUnits_ge st
  rw [importUnits, if_pos rfl, padTo_of_le hlong, map_lowUnit_of_units fun u hu => hunits u (List.mem_of_mem_take hu)]

end

/-! ### The pages -/

section
variable {g : Geometry} {u0 u1 page : Nat} {us : List Nat}

theorem importPageReply_none (h : s.svc.geometry = none) :
    importPageReply u0 u1 page us s = (dropStaging s, refuse .state) := by
  simp only [importPageReply, h]

theorem importPageReply_range (hg : s.svc.geometry = some g)
    (h : 2 < page ∨ g.real ⟨u0, u1 / 64, u1 % 64⟩ = false) :
    importPageReply u0 u1 page us s = (dropStaging s, refuse .range) := by
  by_cases hp : 2 < page
  · simp only [importPageReply, hg, if_pos hp]
  · simp only [importPageReply, hg, if_neg hp, addrOf_unreal (h.resolve_left hp)]

theorem importPageReply_real (hg : s.svc.geometry = some g) (hreal : g.real ⟨u0, u1 / 64, u1 % 64⟩ = true)
    (hp : page ≤ 2) : importPageReply u0 u1 page us s =
      if page = 0 then
        ({ s with map.staging := some ⟨⟨u0, u1 / 64, u1 % 64⟩, 1, importUnits s.straps page us,
          packUnits s.straps.bits (importUnits s.straps page us)⟩ }, doneWith [1, 0])
      else laterPage ⟨u0, u1 / 64, u1 % 64⟩ page (importUnits s.straps page us) s := by
  simp only [importPageReply, hg, if_neg (Nat.not_lt.2 hp), addrOf_real hreal]

theorem laterPage_unexpected {p : Nat} (h : ∀ st, s.map.staging = some st → ¬(st.addr = a ∧ st.nextPage = p)) :
    laterPage a p us s = (dropStaging s, refuse .incomplete) := by
  cases hst : s.map.staging with
  | none =>
    have hsame : dropStaging s = s := by
      rw [dropStaging, ← hst]
    simp only [laterPage, hst, hsame]
  | some st =>
    have hnot : expects a p st = false := decide_eq_false (h st hst)
    simp only [laterPage, hst, hnot, Bool.not_false, if_true]

theorem laterPage_expected {p : Nat} {st : Staging} (hst : s.map.staging = some st) (h : st.addr = a ∧ st.nextPage = p) :
    laterPage a p us s =
      if p = 1 then
        ({ s with map.staging := some ⟨a, 2, st.units ++ us, st.image ++ packUnits s.straps.bits us⟩ }, doneWith [2, 0])
      else
        importImage a (unpackImage s.straps.bits (s.straps.data + 1) (st.image ++ packUnits s.straps.bits us))
          (dropStaging s) := by
  have hexp : expects a p st = true := decide_eq_true h
  simp only [laterPage, hst, hexp, Bool.not_true, Bool.false_eq_true, if_false]

end

/-! ### An entry created settled -/

theorem usedSlots_insertPending (a : Addr) (org : Origin) (es : List Entry) :
    usedSlots (insertEntry ⟨a, org, .pending⟩ es) = usedSlots es := by
  induction es with
  | nil => rfl
  | cons x xs ih =>
    unfold insertEntry
    split
    · rfl
    · rw [usedSlots_cons, ih, ← usedSlots_cons]

/-- A PENDING entry takes no slot from those that are free (R40). -/
theorem freeSlot_addEntry (a : Addr) (org : Origin) (s : State) : freeSlot (addEntry ⟨a, org, .pending⟩ s) = freeSlot s := by
  have hused : slotsInUse (addEntry ⟨a, org, .pending⟩ s) = slotsInUse s := usedSlots_insertPending a org s.map.entries
  rw [freeSlot, freeSlot, hused]
  rfl

/-- An entry created and settled at once stands where it was inserted (R38). -/
theorem withBody_insertEntry {es : List Entry} {org : Origin} {b b' : EntryBody} (hnew : findEntry es a = none) :
    withBody a b' (insertEntry ⟨a, org, b⟩ es) = insertEntry ⟨a, org, b'⟩ es := by
  induction es with
  | nil => simp [insertEntry, withBody]
  | cons x xs ih =>
    have hothers := findEntry_eq_none.1 hnew
    have hx : x.addr ≠ a := hothers x List.mem_cons_self
    have hxs : withBody a b' xs = xs := withBody_of_not_mem fun y hy => hothers y (List.mem_cons_of_mem _ hy)
    have ih := ih (findEntry_eq_none.2 fun y hy => hothers y (List.mem_cons_of_mem _ hy))
    unfold insertEntry
    dsimp only
    split
    · rw [withBody, List.map_cons, List.map_cons, if_pos rfl, if_neg hx]
      exact congrArg (⟨a, org, b'⟩ :: x :: ·) hxs
    · rw [withBody, List.map_cons, if_neg hx]
      exact congrArg (x :: ·) ih

/-! ### The image completed, by its sector's entry (R53) -/

section
variable {f : Field} {e : Entry}

/-- The state with a sector's image in a slot. -/
abbrev imageIn (f : Field) (es : List Entry) (k : Nat) (s : State) : State :=
  { s with map.entries := es, map.store := putSlot k (packImage s.straps.bits f) s.map.store }

/-- The slot reported of a sector settled in it (R197). -/
theorem slotOf_withBody {t : State} {kind : Settled} {n k : Nat} {w : Option Nat} (he : entryOf s a = some e)
    (ht : t.map.entries = withBody a (.settled kind n w k) s.map.entries) : slotOf t a = k := by
  have hentry : entryOf t a = some { e with body := .settled kind n w k } := by
    rw [entryOf_eq, ht]
    exact findEntry_withBody_same he _
  simp only [slotOf, hentry, EntryBody.slot?, Option.getD_some]

theorem importImage_fails (hcheck : passes s.straps.bits f = false) : importImage a f s = (s, refuse .checkFail) := by
  simp only [importImage, hcheck, Bool.not_false, if_true]

variable (hcheck : passes s.straps.bits f = true)
include hcheck

theorem importImage_full (he : entryOf s a = none) (hfull : freeEntries s = 0 ∨ freeSlots s = 0) :
    importImage a f s = (s, refuse .full) := by
  simp only [importImage, hcheck, he, if_pos hfull, Bool.not_true, Bool.false_eq_true, if_false]

theorem importImage_new (he : entryOf s a = none) (hclaim : s.map.claim = none) (hentries : 0 < freeEntries s)
    (hslots : 0 < freeSlots s) : importImage a f s =
      (imageIn f (insertEntry ⟨a, .service, .settled (.recovered .imported) 0 none (freeSlot s)⟩ s.map.entries)
        (freeSlot s) s, doneWith [0, freeSlot s]) := by
  have hmade : settleInNewSlot a (.recovered .imported) f 0 none (addEntry ⟨a, .service, .pending⟩ s) =
      imageIn f (insertEntry ⟨a, .service, .settled (.recovered .imported) 0 none (freeSlot s)⟩ s.map.entries)
        (freeSlot s) s := by
    rw [settleInNewSlot_unclaimed (s := addEntry ⟨a, .service, .pending⟩ s) hclaim, freeSlot_addEntry]
    simp only [addEntry, withBody_insertEntry (b' := .settled (.recovered .imported) 0 none (freeSlot s)) he]
  have hslot : slotOf (imageIn f (insertEntry ⟨a, .service, .settled (.recovered .imported) 0 none (freeSlot s)⟩
      s.map.entries) (freeSlot s) s) a = freeSlot s := by
    have hentry := (findEntry_insertEntry
      (e := ⟨a, .service, .settled (.recovered .imported) 0 none (freeSlot s)⟩) he a).trans (if_pos rfl)
    simp only [slotOf, entryOf_eq, hentry, EntryBody.slot?, Option.getD_some]
  simp only [importImage, hcheck, he, if_neg (show ¬(freeEntries s = 0 ∨ freeSlots s = 0) by omega), hmade, imported, hslot,
    Bool.not_true, Bool.false_eq_true, if_false]

theorem importImage_overlay (he : entryOf s a = some e) (hcode : e.body.stateCode = 4) :
    importImage a f s = (s, refuse .inUse) := by
  obtain ⟨kind, n, w, k, hbody⟩ := settled_of_stateCode (b := e.body) (by omega)
  rw [hbody] at hcode
  cases kind with
  | overlay => simp only [importImage, hcheck, he, hbody, Bool.not_true, Bool.false_eq_true, if_false]
  | lost => cases hcode
  | recovered m => cases hcode

/-- A LOST or RECOVERED sector's image is written over its own, its counts kept (R53). -/
theorem importImage_over {k : Nat} (he : entryOf s a = some e) (hcode : e.body.stateCode = 2 ∨ e.body.stateCode = 3)
    (hslot : e.body.slot? = some k) : importImage a f s =
      (imageIn f (withBody a (.settled (.recovered .imported) (entryCounts s e).1 (entryCounts s e).2 k) s.map.entries)
        k s, doneWith [0, k]) := by
  obtain ⟨kind, n, w, hbody⟩ := settled_of_slot hslot
  have hreported := slotOf_withBody (t := imageIn f (withBody a (.settled (.recovered .imported) n w k) s.map.entries)
    k s) he rfl
  rw [entryCounts_settled hbody]
  rw [hbody] at hcode
  cases kind with
  | overlay => simp [EntryBody.stateCode] at hcode
  | lost =>
    simp only [importImage, hcheck, he, hbody, imported, Bool.not_true, Bool.false_eq_true, if_false]
    exact congrArg (fun i => (_, doneWith [0, i])) hreported
  | recovered m =>
    simp only [importImage, hcheck, he, hbody, imported, Bool.not_true, Bool.false_eq_true, if_false]
    exact congrArg (fun i => (_, doneWith [0, i])) hreported

/-- A PENDING sector becomes RECOVERED with its job's counts, and the job is cancelled (R53, R80). -/
theorem importImage_pending {j : Job} {t : State} (he : entryOf s a = some e) (hbody : e.body = .pending)
    (hclaim : s.map.claim = none) (hj : jobOf s a = some j)
    (ht : cancelJob a (imageIn f (withBody a (.settled (.recovered .imported) j.readsSpent j.lastWeak (freeSlot s))
      s.map.entries) (freeSlot s) s) = t)
    (hmap : t.map.entries = withBody a (.settled (.recovered .imported) j.readsSpent j.lastWeak (freeSlot s)) s.map.entries) :
    importImage a f s = (t, doneWith [0, freeSlot s]) := by
  have hcounts := entryCounts_pending hbody ((addr_of_findEntry he).symm ▸ hj : jobOf s e.addr = some j)
  simp only [importImage, hcheck, he, hbody, hcounts, settleInNewSlot_unclaimed hclaim, ht, imported,
    slotOf_withBody he hmap, Bool.not_true, Bool.false_eq_true, if_false]

end

/-- Settles O47: the pages in their order of judgement, then the completed image by the sector's entry. -/
theorem importPagesBuild : Obligations.ImportPagesBuild := by
  intro dt tag u0 u1 page k us g st e j rest s haccepts
  obtain ⟨work, idle, hbegin⟩ := begin_changes dt s
  rw [hbegin]
  intro b hdue hlen hunits a real after dropped expected packed image filled
  have settles {r : Reply} {t : State} (hreply : importPageReply u0 u1 page us (fieldEnds b) = (fieldEnds t, r))
      (ht : NothingDue t) : after (answered tag r.result.code (padTo 5 r.header ++ r.body) t) :=
    exec_settles (reply := importPageReply u0 u1 page us) haccepts rfl (by rw [hbegin]; exact hreply) ht
  have still {m : MapStore} : NothingDue { b with map := m } :=
    nothingDue_of_eq hdue (nextAct_congr rfl rfl rfl rfl rfl rfl rfl rfl)
  refine ⟨fun hg => ?_, fun hg => ⟨fun hout => ?_, fun hreal hp => ?_, fun hreal hlow hhigh => ?_⟩⟩
  · exact settles (t := dropped) (importPageReply_none hg) still
  · exact settles (t := dropped) (importPageReply_range (s := fieldEnds b) hg hout) still
  · subst hp
    have hreply := (importPageReply_real (us := us) (s := fieldEnds b) hg hreal (Nat.zero_le 2)).trans (if_pos rfl)
    rw [importUnits_whole (st := (fieldEnds b).straps) hlen hunits (by omega)] at hreply
    exact settles (t := { b with map.staging := some ⟨a, 1, us, packed us⟩ }) hreply still
  have hlater : importPageReply u0 u1 page us (fieldEnds b) =
      laterPage a page (importUnits s.straps page us) (fieldEnds b) :=
    (importPageReply_real (s := fieldEnds b) hg hreal hhigh).trans (if_neg (by omega))
  refine ⟨fun hst => ?_, fun hst hexp => ?_, fun hst hexp hp => ?_, fun hst hexp hp => ?_⟩
  · refine settles (t := dropped) (hlater.trans (laterPage_unexpected fun st' hst' => ?_)) still
    cases hst.symm.trans hst'
  · refine settles (t := dropped) (hlater.trans (laterPage_unexpected fun st' hst' => ?_)) still
    obtain rfl := Option.some.inj (hst.symm.trans hst')
    exact of_decide_eq_false hexp
  · subst hp
    have hreply := hlater.trans ((laterPage_expected (s := fieldEnds b) hst (of_decide_eq_true hexp)).trans (if_pos rfl))
    rw [importUnits_whole hlen hunits (by omega)] at hreply
    exact settles (t := { b with map.staging := some ⟨a, 2, st.units ++ us, st.image ++ packed us⟩ }) hreply still
  subst hp
  have hcompletes : importPageReply u0 u1 2 us (fieldEnds b) = importImage a image (fieldEnds dropped) := by
    have hreply := hlater.trans ((laterPage_expected (s := fieldEnds b) hst (of_decide_eq_true hexp)).trans
      (if_neg (by omega)))
    rw [importUnits_last hlen hunits] at hreply
    exact hreply
  refine ⟨fun hcheck => ?_, fun hcheck => ⟨fun he hfull => ?_, fun he hclaim hentries hslots => ?_, fun he hcode => ?_,
    fun he hcode hslot => ?_, fun he hbody hclaim hj hblocked => ?_⟩⟩
  · exact settles (t := dropped) (hcompletes.trans (importImage_fails hcheck)) still
  · exact settles (t := dropped) (hcompletes.trans (importImage_full hcheck he hfull)) still
  · exact settles (t := imageIn image (insertEntry ⟨a, .service, .settled (.recovered .imported) 0 none (freeSlot s)⟩
      s.map.entries) (freeSlot s) dropped)
      (hcompletes.trans (importImage_new (s := fieldEnds dropped) hcheck he hclaim hentries hslots)) still
  · exact settles (t := dropped) (hcompletes.trans (importImage_overlay hcheck he hcode)) still
  · exact settles (t := filled k (entryCounts s e).1 (entryCounts s e).2)
      (hcompletes.trans (importImage_over (s := fieldEnds dropped) hcheck he hcode hslot)) still
  · intro cancelled
    refine ⟨fun hbehind => ?_, fun hq hothers hholder => ?_⟩
    · refine settles (t := { cancelled with seq.queue := withoutJob a s.seq.queue })
        (hcompletes.trans (importImage_pending (s := fieldEnds dropped) hcheck he hbody hclaim hj
          (cancelJob_behind (s := imageIn image (withBody a (.settled (.recovered .imported) j.readsSpent j.lastWeak
            (freeSlot s)) s.map.entries) (freeSlot s) (fieldEnds dropped)) hj hbehind hblocked) rfl)) ?_
      exact nothingDue_of_eq hdue (nextAct_congr rfl rfl (head?_withoutJob hbehind) rfl rfl rfl rfl rfl)
    · refine settles (t := { cancelled with seq := ⟨rest, [], none, none⟩ })
        (hcompletes.trans (importImage_pending (s := fieldEnds dropped) hcheck he hbody hclaim hj
          (cancelJob_first (s := imageIn image (withBody a (.settled (.recovered .imported) j.readsSpent j.lastWeak
            (freeSlot s)) s.map.entries) (freeSlot s) (fieldEnds dropped)) hq (addr_of_jobOf hj) hothers
            (by rw [show s.drv.holder = .controller from hholder]; simp) hblocked) rfl)) ?_
      exact nothingDue_of_eq hdue (nextAct_congr_controller hholder rfl rfl rfl rfl)

end Sys2Proof.Machine
end

section
/-!
PROOFS. How a vote's outcome reaches its job (R71, R99, R114, R116): the only job's ends, and the rung it goes on to.
-/

namespace Sys2Proof.Machine

variable {s : State} {j : Job}

/-! ### The next vote -/

/-- The vote computed after the one that completes (R105). -/
abbrev followingVote (s : State) : Option Vote := s.eng.waiting.bind fun u =>
  if u.discard then none else some (startVote s.straps u.owner u.inputs false)

theorem nextVote_eq (s : State) : nextVote s = { s with eng := ⟨followingVote s, none⟩ } := by
  cases hw : s.eng.waiting with
  | none => simp only [nextVote, hw, followingVote, Option.bind_none]
  | some u => simp only [nextVote, hw, followingVote, Option.bind_some]

/-- The vote that follows, marked for the job that ends (R105, R116). -/
theorem markedVotes_following (a : Addr) (follows : Option Vote) : markedVotes a ⟨follows, none⟩ =
    ⟨follows.map fun u => if u.owner = a then { u with discard := true } else u, none⟩ := rfl

/-! ### The only job's leaving -/

/-- The drive is no one's, or the job that leaves has it with its hands free (R80, R134). -/
abbrev LeavesDrive (j : Job) (s : State) : Prop :=
  s.drv.holder = .nobody ∨ (s.drv.holder = .recovery ∧ HandsFree s ∧ j.state ≠ .waiting)

/-- The state without its only job (R70, R80, R116). -/
abbrev jobGone (j : Job) (s : State) : State :=
  { s with
    seq := ⟨[], [], none, none⟩
    eng := if j.state = .voting then markedVotes j.addr s.eng else s.eng
    drv.holder := .nobody }

/-- A drive that was no one's is left as it is. -/
theorem jobGone_nobody (hh : s.drv.holder = .nobody) : jobGone j s = { s with
    seq := ⟨[], [], none, none⟩
    eng := if j.state = .voting then markedVotes j.addr s.eng else s.eng } := by
  rw [jobGone, ← hh]

theorem noticeSweep_idle (h : s.sweep.state = .idle) : noticeSweep s = s := by
  rw [noticeSweep_eq (by simp [h]), if_neg (by simp [h])]

theorem removeJob_only (hq : s.seq.queue = [j]) (hsweep : s.sweep.state = .idle) (h : LeavesDrive j s) :
    removeJob j.addr s = jobGone j s := by
  let left : State :=
    { s with seq := ⟨[], [], none, none⟩, eng := if j.state = .voting then markedVotes j.addr s.eng else s.eng }
  rw [removeJob, reorder_withoutJob_first hq (by simp)]
  rcases h with hh | ⟨hh, hfree, hstate⟩
  · rw [if_neg fun h => by simp [hh] at h, jobGone_nobody hh]
    exact noticeSweep_idle (s := left) hsweep
  · have hdevice : left.drv.holder.isDevice = true := by simp [left, hh, Holder.isDevice]
    rw [if_pos ⟨hstate, hh⟩]
    exact (congrArg noticeSweep (giveUp_device (s := left) hfree hdevice)).trans (noticeSweep_idle hsweep)

/-- What a RECOVERED end by a method makes of the map and of the head of a job that is not worn by it (R46, R165). -/
abbrev recoveredBy (m : Method) (f : Field) (j : Job) (r : HeadRecord) (s : State) : State :=
  { s with
    map.entries := withBody j.addr (.settled (.recovered m) j.readsSpent j.lastWeak (freeSlot s)) s.map.entries
    map.store := putSlot (freeSlot s) (packImage s.straps.bits f) s.map.store
    heads := s.heads.set j.addr.head { r with
      score := r.score - (min j.readsSpent 15 + surcharge m), recoveries := min (r.recoveries + 1) 65535 } }

section
variable {r : HeadRecord} (hq : s.seq.queue = [j]) (hsweep : s.sweep.state = .idle) (hdrive : LeavesDrive j s)
  (hclaim : s.map.claim = none) (hr : s.heads[j.addr.head]? = some r)
include hq hsweep hdrive hclaim hr

/-- The only job ends RECOVERED on a head that stays unworn (R46, R77, R165). -/
theorem endRecovered_only {m : Method} {f : Field} (hw : r.worn = false)
    (hscore : r.threshold < r.score - (min j.readsSpent 15 + surcharge m)) :
    endRecovered j.addr m f s =
      let ended := jobGone j (recoveredBy m f j r s)
      if isWithheld s j.addr then withholdServed j.addr ended else ended := by
  have hworn : wornAt { r with
      score := r.score - (min j.readsSpent 15 + surcharge m), recoveries := countUp r.recoveries }
      (r.score - (min j.readsSpent 15 + surcharge m)) = false := wornAt_of_lt hw hscore
  have hnotice : noticeRecovered j.addr.head m j.readsSpent (mapRecovered j.addr m f j.readsSpent j.lastWeak s) =
      recoveredBy m f j r s := by
    rw [mapRecovered, settleInNewSlot_unclaimed hclaim]
    refine (changeHead_quiet (by exact hr) fun _ => hworn).trans ?_
    rw [hworn, ← hw]
    rfl
  simp only [endRecovered, jobOf_head hq, hnotice]
  rw [removeJob_only (s := recoveredBy m f j r s) hq hsweep hdrive]
  rfl

/-- The only job ends LOST with its best image (R47, R79, R166). -/
theorem endLost_alone {kind : LostKind} : endLost j.addr kind s =
    let lost := jobGone j (lostAs kind j r (bestImage s) s)
    if isWithheld s j.addr then withholdLive .lost j.addr lost else lost := by
  have hlost : noticeLost j.addr.head (logIncident (.jobLost kind j.addr j.ladder j.rungIndex j.readsSpent j.lastWeak)
      (mapLost j.addr (bestImage s) j.readsSpent j.lastWeak s)) = lostAs kind j r (bestImage s) s := by
    rw [mapLost, settleInNewSlot_unclaimed hclaim, logIncident_eq, noticeLost_eq (by exact hr)]
    rfl
  simp only [endLost, jobOf_head hq, headJob, hq, List.head?_cons, Option.map_some, if_true, hlost]
  rw [removeJob_only (s := lostAs kind j r (bestImage s) s) hq hsweep hdrive]
  rfl

end

/-! ### The rung that fails (R99) -/

/-- The rung that follows a failed one, when there is one to follow. -/
def rungAfter (act : OnFailure) (i : Nat) : Nat := if act = .skip then min (i + 2) 16 else i + 1

theorem failRung_stop (hq : s.seq.queue = [j]) : failRung j.addr .stop s = endLost j.addr j.lostKind s := by
  simp only [failRung, jobOf_head hq]

/-- The only job at the rung after a failed one, ACTIVE while it has the drive (R99). -/
abbrev atRungAfter (act : OnFailure) (j : Job) (s : State) : Job :=
  { j with
    rungIndex := rungAfter act j.rungIndex
    readsDone := 0
    state := if decide (s.drv.holder = .recovery ∧ s.drv.passOn = .stays) then .active else .waiting }

section
variable {act : OnFailure} (hq : s.seq.queue = [j]) (hact : act ≠ .stop)
include hq hact

theorem failRung_goes : failRung j.addr act s =
    let t := startRung j.addr { s with seq.queue := [atRungAfter act j s] }
    if decide (s.drv.holder = .recovery ∧ s.drv.passOn = .stays) then goToRung t else t := by
  cases act with
  | stop => exact absurd rfl hact
  | cont => simp only [failRung, jobOf_head hq, updateJob_head hq (by simp)]; rfl
  | skip => simp only [failRung, jobOf_head hq, updateJob_head hq (by simp)]; rfl

/-- A job that does not hold the drive waits at the rung after the failed one. -/
theorem failRung_waits {g : Rung} (hholder : s.drv.holder ≠ .recovery)
    (hg : (ladderOf s j.ladder).rungs[rungAfter act j.rungIndex]? = some g) (hworn : isWorn s j.addr.head = false) :
    failRung j.addr act s = { s with
      seq.queue := [{ j with rungIndex := rungAfter act j.rungIndex, readsDone := 0, state := .waiting }]
      seq.workingRung := some g } := by
  have hwaits : decide (s.drv.holder = .recovery ∧ s.drv.passOn = .stays) = false := by simp [hholder]
  rw [failRung_goes hq hact, atRungAfter, hwaits]
  exact startRung_comes (s := { s with seq.queue := [{ j with
    rungIndex := rungAfter act j.rungIndex, readsDone := 0, state := .waiting }] }) rfl (by simp)
    (skipWorn_stays hg (.inl hworn) _) hg (.inl rfl)

/-- With no rung left the job ends LOST. -/
theorem failRung_exhausted {t : State} (hlen : (ladderOf s j.ladder).rungs.length ≤ rungAfter act j.rungIndex)
    (hlost : endLost j.addr j.lostKind { s with seq.queue := [atRungAfter act j s] } = t) (ht : t.seq.queue = []) :
    failRung j.addr act s = t := by
  let there : State := { s with seq.queue := [atRungAfter act j s] }
  have hnone : (ladderOf s j.ladder).rungs[rungAfter act j.rungIndex]? = none := List.getElem?_eq_none hlen
  have hstays : ∀ worn n, skipWorn worn (ladderOf s j.ladder).rungs n (rungAfter act j.rungIndex) =
      rungAfter act j.rungIndex := fun worn n => by
    cases n with
    | zero => rfl
    | succ n => simp [skipWorn, hnone]
  have harrive : arriveRung j.addr there = t := by
    rw [arriveRung, show jobOf there j.addr = some (atRungAfter act j s) from jobOf_head (s := there) (others := []) rfl]
    dsimp only
    rw [show ladderOf there (atRungAfter act j s).ladder = ladderOf s j.ladder from rfl, hstays, if_pos rfl, if_pos hlen]
    exact hlost
  have hhead : headJob t = none := by simp [headJob, ht]
  have hstart : startRung j.addr there = t := by simp only [startRung, harrive, hhead]
  rw [failRung_goes hq hact]
  simp only [there] at hstart
  simp only [hstart, goToRung, hhead, ite_self]

end

end Sys2Proof.Machine
end

section
/-!
PROOFS. A vote that completes (R71, R105, R114, R116): its outcome at the only job, the end of the sector's withholding,
and the drive taken from a sweep.
-/

namespace Sys2Proof.Machine

variable {s b : State} {v : Vote} {j : Job} {r : HeadRecord} {w : Withhold}

/-! ### The command -/

/-- A vote that is neither accepted nor discarded (R71). -/
abbrev Rejected (v : Vote) (s : State) : Prop :=
  voteEnd s.straps v = .ambiguous ∨ voteEnd s.straps v = .tooWeak ∨ voteEnd s.straps v = .failed

/-- The job as the vote's outcome leaves it (R71). -/
abbrev toldJob (v : Vote) (j : Job) (s : State) : Job :=
  { j with lastWeak := some v.weakCount, lastAmbiguous := decide (voteEnd s.straps v = .ambiguous) }

/-- The vote's outcome recorded at its job, the next vote in computation (R71, R105). -/
abbrev told (v : Vote) (j : Job) (s : State) : State :=
  { s with
    eng := ⟨followingVote s, none⟩
    seq.queue := [toldJob v j s]
    seq.lastVote := some v.image }

theorem voteCompletes_discards {dt : Nat} (hbegin : begin dt s = b) (hin : b.eng.inFlight = some v)
    (hd : v.discard = true) : exec (.voteCompletes dt) s = .next { b with eng := ⟨followingVote b, none⟩ } := by
  simp only [exec, execVoteCompletes, hbegin, hin, hd, if_true, nextVote_eq]

theorem voteCompletes_tells {dt : Nat} (hbegin : begin dt s = b) (hin : b.eng.inFlight = some v)
    (hd : v.discard = false) (hq : b.seq.queue = [j]) (ha : j.addr = v.owner) (hstate : j.state = .voting) :
    exec (.voteCompletes dt) s = .next (settle (takeOutcome v (nextVote b))) := by
  have hhead : headJob (nextVote b) = some j := by simp [nextVote_eq, headJob, hq]
  simp [exec, execVoteCompletes, hbegin, hin, hd, hhead, ha, hstate]

section
variable (hq : s.seq.queue = [j]) (ha : j.addr = v.owner)
include hq ha

theorem outcome_told : ({ updateJob v.owner (fun j => { j with
      lastWeak := some v.weakCount, lastAmbiguous := decide (voteEnd (nextVote s).straps v = .ambiguous) })
      (nextVote s) with seq.lastVote := some v.image } : State) = told v j s := by
  rw [nextVote_eq, ← ha, updateJob_head (s := { s with eng := ⟨followingVote s, none⟩ }) hq (by simp)]

theorem takeOutcome_accepted (h : voteEnd s.straps v = .acceptedVote) :
    takeOutcome v (nextVote s) = endRecovered j.addr .vote v.image (told v j s) := by
  rw [← outcome_told hq ha, ha]
  simp only [takeOutcome, show (nextVote s).straps = s.straps by rw [nextVote_eq], h]

theorem takeOutcome_searched {image : Field} {flips : Nat} (h : voteEnd s.straps v = .acceptedSearch image flips) :
    takeOutcome v (nextVote s) = endRecovered j.addr (.search flips) image (told v j s) := by
  rw [← outcome_told hq ha, ha]
  simp only [takeOutcome, show (nextVote s).straps = s.straps by rw [nextVote_eq], h]

theorem takeOutcome_rejected {g : Rung} (h : Rejected v s) (hg : s.seq.workingRung = some g) :
    takeOutcome v (nextVote s) = failRung j.addr g.onFailure (told v j s) := by
  have hfails : takeOutcome v (nextVote s) = voteFails j.addr (told v j s) := by
    rw [← outcome_told hq ha, ha]
    rcases h with h | h | h <;>
      simp only [takeOutcome, show (nextVote s).straps = s.straps by rw [nextVote_eq], h]
  rw [hfails, voteFails, show (told v j s).seq.workingRung = some g from hg]

end

/-! ### With no withholding and the drive no one's -/

/-- What changes neither the drive nor its timers leaves nothing due, when neither the head job nor the sweep is to be
granted the free drive. -/
theorem nothingDue_freeDrive {t : State} (hdue : NothingDue s) (hh : s.drv.holder = .nobody) (hdrv : t.drv = s.drv)
    (hsvc : t.svc = s.svc) (hw : t.ctl.withhold = none) (hhead : headMayRun t = false)
    (hsweep : sweepMayRun t = false) : NothingDue t := by
  obtain ⟨hpass, -, -, hrest, -, -⟩ := (nothingDue_iff s).1 hdue
  have hnobody : t.drv.holder = .nobody := hdrv ▸ hh
  have hsame : (restDue t && restPoint t) = (restDue s && restPoint s) := by
    have hlimiter : restDue t = restDue s := by unfold restDue workDuration; rw [hdrv, hsvc]
    have hpoint : restPoint t = restPoint s := by unfold restPoint inRetry; rw [hdrv]
    rw [hlimiter, hpoint]
  refine (nothingDue_iff t).2 ⟨hdrv ▸ hpass, by simp [restMeetsWithhold, hw], by simp [limitEnds, hw], hsame.trans hrest,
    sweepYields_of_holder (by simp [hnobody]), .inr ?_⟩
  simp [holderAct, hnobody, hhead, hsweep]

theorem isWithheld_none (h : s.ctl.withhold = none) (a : Addr) : isWithheld s a = false := by simp [isWithheld, h]

theorem isWithheld_of (h : s.ctl.withhold = some w) (a : Addr) : isWithheld s a = decide (w.addr = a) := by
  simp [isWithheld, h]

/-- The only job gone from a drive that is no one's leaves nothing due. -/
theorem nothingDue_jobGone {t : State} (hdue : NothingDue s) (hh : s.drv.holder = .nobody)
    (hw : s.ctl.withhold = none) (hsweep : s.sweep.state = .idle) (hdrv : t.drv = s.drv) (hsvc : t.svc = s.svc)
    (hctl : t.ctl = s.ctl) (hsame : t.sweep = s.sweep) : NothingDue (jobGone j t) := by
  have hgone := jobGone_nobody (j := j) (s := t) (by rw [hdrv, hh])
  rw [hgone]
  exact nothingDue_freeDrive hdue hh hdrv hsvc (hctl ▸ hw) (headMayRun_of_empty rfl) (sweepMayRun_of_idle (hsame ▸ hsweep))

/-! ### With the sector's read withheld -/

/-- The withheld read's job has the drive, and nothing is in hand on it (R36, R37). -/
structure HoldsForWithheld (w : Withhold) (j : Job) (s : State) : Prop where
  withheld : s.ctl.withhold = some w
  sector : w.addr = j.addr
  holder : s.drv.holder = .recovery
  handsFree : HandsFree s
  noneHeld : s.drv.heldOrders = []

/-- The withheld read is served after the job's RECOVERED end (R37). -/
theorem settle_withholdServed {t : State} (ht : t.drv.holder = .nobody) (hfree : HandsFree t)
    (hw : t.ctl.withhold = some w) (hq : t.seq.queue = []) (hsweep : t.sweep.state = .idle) (a : Addr) :
    settle (withholdServed a t) = servedNext a (reported .recovered w t) := by
  obtain ⟨-, htravel, -, -, hpass, hrest⟩ := hfree
  have hserved : withholdServed a t = servedNext a (reported .recovered w t) := by
    rw [withholdServed, closeWithhold_eq hw, dropReseat_none (s := reported .recovered w t) htravel, endUse,
      if_neg (by simp [ht, hpass])]
    rfl
  exact settle_eq hserved (nothingDue_of_nobody ht hpass rfl hrest (headMayRun_of_empty hq) (sweepMayRun_of_idle hsweep))

/-- The withheld read gets its live pass after the job's LOST end (R37). -/
theorem settle_withholdLive {t : State} {k : EndKind} (ht : t.drv.holder = .nobody) (hfree : HandsFree t)
    (hheld : t.drv.heldOrders = []) (hw : t.ctl.withhold = some w) (hturning : t.drv.condition = .turning)
    (hview : AtView t) (a : Addr) : settle (withholdLive k a t) = livePass a (reported k w t) := by
  obtain ⟨hstep, htravel, hcapture, hepisode, hpass, hrest⟩ := hfree
  let waiting : State := controllers (wanting .liveRead a (reported k w t))
  have hlive : withholdLive k a t = waiting := by
    rw [withholdLive, closeWithhold_eq hw, dropReseat_none (s := reported k w t) htravel]
    exact (beginLive_wants (s := reported k w t) (.inr hturning)).trans
      (takeDrive_free (by simp [ht, Holder.isDevice]) hpass)
  have hwaits : Waits waiting :=
    ⟨⟨⟨hpass, hrest, noWithhold rfl, sweepYields_of_holder (by simp [waiting])⟩, hstep, hcapture, hepisode⟩, rfl, hheld,
      htravel, rfl⟩
  obtain ⟨hrecord, herror⟩ := hview
  rw [hlive]
  refine ((settles_reseat_targets hwaits rfl (congrArg DriveRecord.cyl hrecord)
    (congrArg DriveRecord.offset hrecord) rfl (.inl rfl)).of_eq ?_).settle
  simp [waiting, hrecord, herror, htravel]
  rw [← herror]

end Sys2Proof.Machine
end

section
/-!
PROOFS. A vote that completes, clause by clause (R71, R99, R105, R114, R116, R133).
-/

namespace Sys2Proof.Machine

variable {s b : State} {v : Vote} {j : Job} {r : HeadRecord} {w : Withhold} {g : Rung}

/-! ### The drive taken from the sweep -/

/-- A FOREGROUND head that waits has the sweep yield the drive (R133). -/
theorem nextAct_sweepYields {others : List Job} (hh : s.drv.holder = .sweep) (hpass : s.drv.passOn = .stays)
    (hw : s.ctl.withhold = none) (hrest : restDue s = false) (hmay : deviceMayWork s = true)
    (hq : s.seq.queue = j :: others) (hwaits : j.state = .waiting) (hcls : j.cls = .foreground) :
    nextAct s = some .sweepYields := by
  have hyields : sweepYields s = true := by simp [sweepYields, headMayRun, headJob, hh, hpass, hmay, hq, hwaits, hcls]
  simp [nextAct, hpass, hrest, hyields, restMeetsWithhold, limitEnds, hw]

/-- The drive given up by a track read that is broken off (R133, R134, R156). -/
abbrev sweepGone (s : State) : State :=
  { s with
    sweep := { resetTrack s.sweep with state := .waiting }
    drv.holder := .nobody
    drv.travel := none
    drv.episode := none
    drv.capture := none
    drv.readGate := s.drv.readGate && s.drv.capture.isNone
    out := s.out ++ if s.drv.readGate && s.drv.capture.isSome then [.readGate false] else [] }

theorem doAct_sweepYields (hh : s.drv.holder = .sweep) (hstep : s.drv.step = none) (hrest : restDue s = false)
    (hcapture : (s.drv.capture.all fun c => decide (c.party ≠ .live)) = true) (hsweep : s.sweep.state = .sweeping) :
    doAct .sweepYields s = sweepGone s := by
  let broken : State := { s with sweep := { resetTrack s.sweep with state := .waiting } }
  have hbroken : interruptSweep s = broken := by rw [interruptSweep_sets, if_pos hsweep]
  rw [doAct, hbroken]
  exact giveUp_eq (s := broken) (by simp [broken, hh, Holder.isDevice]) hstep hrest hcapture

/-! ### The end of a rung with none to follow -/

theorem closeWithhold_changes (k : EndKind) (s : State) : ∃ c, closeWithhold k s = { s with ctl := c } := by
  unfold closeWithhold
  split <;> exact ⟨_, rfl⟩

theorem takeDrive_nobody_seq (h : s.drv.holder = .nobody) : (takeDrive s).seq = s.seq := by
  obtain ⟨d, hd⟩ := setHolder_changes .controller { s with drv.quietDue := none, drv.passOn := .stays }
  rw [takeDrive, if_neg (by simp [h, Holder.isDevice]), hd]

/-- A withholding that ends with the drive no one's leaves the queue's block alone (R37, R132). -/
theorem withholdLive_nobody_seq {k : EndKind} {a : Addr} (h : s.drv.holder = .nobody) :
    (withholdLive k a s).seq = s.seq := by
  obtain ⟨c, hc⟩ := closeWithhold_changes k s
  obtain ⟨t, ht⟩ := dropReseat_changes_travel { s with ctl := c }
  rw [withholdLive, hc, ht, beginLive]
  split
  · rfl
  · exact takeDrive_nobody_seq h

/-- The only job as its rung's failure ends it: where END leaves it, else at the rung past the last (R99). -/
abbrev failedJob (act : OnFailure) (j : Job) (s : State) : Job := if act = .stop then j else atRungAfter act j s

/-- The only job LOST by its rung's failure (R79, R99). -/
abbrev failedLost (act : OnFailure) (j : Job) (r : HeadRecord) (s : State) : State :=
  jobGone (failedJob act j s) (lostAs j.lostKind (failedJob act j s) r (bestImage s) s)

theorem failRung_ends {act : OnFailure} (hq : s.seq.queue = [j]) (hsweep : s.sweep.state = .idle)
    (hdrive : LeavesDrive j s) (hclaim : s.map.claim = none) (hr : s.heads[j.addr.head]? = some r)
    (hends : act = .stop ∨ (ladderOf s j.ladder).rungs.length ≤ rungAfter act j.rungIndex) :
    failRung j.addr act s =
      if isWithheld s j.addr then withholdLive .lost j.addr (failedLost act j r s) else failedLost act j r s := by
  by_cases hstop : act = .stop
  · rw [failedLost, failedJob, if_pos hstop, hstop, failRung_stop hq]
    exact endLost_alone hq hsweep hdrive hclaim hr
  · let there : State := { s with seq.queue := [atRungAfter act j s] }
    have hdrive' : LeavesDrive (atRungAfter act j s) there := by
      rcases hdrive with hh | ⟨hh, hfree, -⟩
      · exact .inl hh
      · obtain ⟨-, -, -, -, hpass, -⟩ := id hfree
        exact .inr ⟨hh, hfree, by simp [hh, hpass]⟩
    rw [failedLost, failedJob, if_neg hstop]
    refine failRung_exhausted hq hstop (hends.resolve_left hstop)
      (endLost_alone (s := there) (j := atRungAfter act j s) rfl hsweep hdrive' hclaim hr) ?_
    split
    · exact congrArg Sequencer.queue (withholdLive_nobody_seq rfl)
    · rfl

/-- The votes that the failure of a VOTING job's rung leaves: marked where END ends it (R116). -/
theorem failedLost_eq {act : OnFailure} (hstate : j.state = .voting) : failedLost act j r s =
    { lostAs j.lostKind { j with rungIndex := if act = .stop then j.rungIndex else rungAfter act j.rungIndex } r
        (bestImage s) s with
      seq := ⟨[], [], none, none⟩
      eng := if act = .stop then markedVotes j.addr s.eng else s.eng
      drv.holder := .nobody } := by
  by_cases hstop : act = .stop
  · simp only [failedLost, failedJob, jobGone, if_pos hstop, if_pos hstate]
  · have hnot : (atRungAfter act j s).state ≠ .voting := by
      dsimp only
      split <;> simp
    simp only [failedLost, failedJob, jobGone, if_neg hstop, if_neg hnot]

/-! ### The obligation -/

theorem isWorn_of {n : Nat} (hr : s.heads[n]? = some r) : isWorn s n = r.worn := by simp [isWorn, hr]

/-- A job that is refused the accepted vote's end waits at the next rung while it has not the drive (R68, R99). -/
abbrev waitsAtNext (v : Vote) (j : Job) (next : Rung) (s : State) : State :=
  { told v j s with
    seq.queue := [{ toldJob v j s with rungIndex := j.rungIndex + 1, readsDone := 0, state := .waiting }]
    seq.workingRung := some next }

theorem takeOutcome_waits {next : Rung} (hq : s.seq.queue = [j]) (ha : j.addr = v.owner) (h : Rejected v s)
    (hg : s.seq.workingRung = some g) (hact : g.onFailure = .cont) (hh : s.drv.holder ≠ .recovery)
    (hnext : (ladderOf s j.ladder).rungs[j.rungIndex + 1]? = some next) (hr : s.heads[j.addr.head]? = some r)
    (hw : r.worn = false) : takeOutcome v (nextVote s) = waitsAtNext v j next s := by
  rw [takeOutcome_rejected hq ha h hg, hact]
  exact failRung_waits (s := told v j s) (j := toldJob v j s) rfl (by decide) hh hnext ((isWorn_of hr).trans hw)

theorem eq_of_nobody (h : s.drv.holder = .nobody) : ({ s with drv.holder := .nobody } : State) = s := by
  rw [← h]

theorem surcharged_lt {m : Method} {n score threshold : Nat} (h : threshold < score - 19) :
    threshold < score - (min n 15 + surcharge m) := by
  have hm : surcharge m ≤ 4 := by cases m <;> simp [surcharge]
  omega

/-- Settles O60, by the outcome of the vote, with the drive no one's, the read withheld, or the sweep reading. -/
theorem votesComplete : Obligations.VotesComplete := by
  intro dt v j g r e image next flips w s
  obtain ⟨work, idle, hbegin⟩ := begin_changes dt s
  rw [hbegin]
  intro b hin follows left methodSurcharge score recovered rejected rungs toldNow
  have tells {u : State} (hd : v.discard = false) (hq : s.seq.queue = [j]) (ha : j.addr = v.owner)
      (hstate : j.state = .voting) (hu : settle (takeOutcome v (nextVote b)) = u) :
      exec (.voteCompletes dt) s = .next u :=
    (voteCompletes_tells hbegin hin hd hq ha hstate).trans (congrArg Host.Outcome.next hu)
  refine ⟨fun hd => voteCompletes_discards hbegin hin hd,
    fun hd hq ha hstate _ _ hclaim hsweep hr => ?ends,
    fun hd hq ha hstate hcls hrej hg hact hnext hrestore hr hworn hh hsweep hpass hstep hepisode hcapture hw hrest hm
      hturning hresting hfault haway => ?yields⟩
  case ends =>
    intro free withheld
    let after : State := told v j b
    have recovers (m : Method) (f : Field) (hdrive : LeavesDrive j b) (hw : r.worn = false)
        (hscore : r.threshold < r.score - 19) := endRecovered_only (s := after) (j := toldJob v j b) (m := m) (f := f)
      rfl hsweep hdrive hclaim hr hw (surcharged_lt hscore)
    have recovered_eq (m : Method) (f : Field) : jobGone (toldJob v j b) (recoveredBy m f (toldJob v j b) r after) =
        { recovered m f with drv.holder := .nobody } := by
      have hsurcharge : surcharge m = methodSurcharge m := by cases m <;> rfl
      simp only [jobGone, if_pos hstate, hsurcharge]
      rfl
    refine ⟨fun hw hscore => ⟨fun ⟨hnone, hh, hdue⟩ => ?free,
      fun ⟨hwith, hsector, hh, hpass, hstep, hcapture, htravel, hepisode, hheld, hrest⟩ hvote => ?served⟩,
      fun hrej hg => ?lost⟩
    case free =>
      have accepted (m : Method) (f : Field) (h : takeOutcome v (nextVote b) = endRecovered j.addr m f after) :
          exec (.voteCompletes dt) s = .next (recovered m f) := by
        have hgone := (recovered_eq m f).trans (eq_of_nobody (s := recovered m f) hh)
        refine tells hd hq ha hstate (settle_eq (h.trans ((recovers m f (.inl hh) hw hscore).trans ?_)) ?_)
        · exact (if_neg (by simp [isWithheld_none (s := after) hnone])).trans hgone
        · exact hgone ▸ nothingDue_jobGone hdue hh hnone hsweep rfl rfl rfl rfl
      refine ⟨fun h => accepted .vote v.image (takeOutcome_accepted (s := b) hq ha h),
        fun h => accepted (.search flips) image (takeOutcome_searched (s := b) hq ha h), fun hrej hg hact hlost hlen => ?_⟩
      have hrung := List.getElem?_eq_getElem hlen
      have hother : b.drv.holder ≠ .recovery := fun h => nomatch hh.symm.trans h
      rw [hrung]
      exact tells hd hq ha hstate (settle_eq (takeOutcome_waits (s := b) hq ha hrej hg hact hother hrung hr hw)
        (nothingDue_freeDrive hdue hh rfl rfl hnone (headMayRun_of_lost hlost) (sweepMayRun_of_lost hlost)))
    case served =>
      have hfree : HandsFree b := ⟨hstep, htravel, hcapture, hepisode, hpass, hrest⟩
      have hends := (takeOutcome_accepted (s := b) hq ha hvote).trans
        ((recovers .vote v.image (.inr ⟨hh, hfree, by simp [hstate]⟩) hw hscore).trans
          (if_pos (by simp [isWithheld_of (s := after) hwith, hsector])))
      rw [recovered_eq] at hends
      refine tells hd hq ha hstate ((congrArg settle hends).trans ?_)
      exact settle_withholdServed (t := { recovered .vote v.image with drv.holder := .nobody }) rfl hfree hwith rfl hsweep j.addr
    case lost =>
      intro i hends lost
      have hlost (hdrive : LeavesDrive j b) := (takeOutcome_rejected (s := b) hq ha hrej hg).trans
        (failRung_ends (s := after) (j := toldJob v j b) rfl hsweep hdrive hclaim hr hends)
      have hgone : failedLost g.onFailure (toldJob v j b) r after = { lost with drv.holder := .nobody } :=
        failedLost_eq hstate
      refine ⟨fun ⟨hnone, hh, hdue⟩ => ?_,
        fun ⟨hwith, hsector, hh, hpass, hstep, hcapture, htravel, hepisode, hheld, hrest⟩ hturning hview => ?_⟩
      · have hgone := hgone.trans (eq_of_nobody (s := lost) hh)
        refine tells hd hq ha hstate (settle_eq ((hlost (.inl hh)).trans ?_) ?_)
        · exact (if_neg (by simp [isWithheld_none (s := after) hnone])).trans hgone
        · exact hgone ▸ nothingDue_jobGone hdue hh hnone hsweep rfl rfl rfl rfl
      · have hfree : HandsFree b := ⟨hstep, htravel, hcapture, hepisode, hpass, hrest⟩
        have hends := (hlost (.inr ⟨hh, hfree, by simp [hstate]⟩)).trans
          (if_pos (by simp [isWithheld_of (s := after) hwith, hsector]))
        rw [hgone] at hends
        refine tells hd hq ha hstate ((congrArg settle hends).trans ?_)
        exact settle_withholdLive (t := { lost with drv.holder := .nobody }) rfl hfree hheld hwith hturning hview j.addr
  case yields =>
    let waits : State := waitsAtNext v j next b
    have hmay : deviceMayWork b = true := deviceMayWork_of hm hturning hresting
    have hother : b.drv.holder ≠ .recovery := fun h => nomatch hh.symm.trans h
    have houtcome : takeOutcome v (nextVote b) = waits := takeOutcome_waits (s := b) hq ha hrej hg hact hother hnext hr hworn
    have hyields := doAct_sweepYields (s := waits) hh hstep hrest hcapture hsweep
    have hquiet : Quiescent (sweepGone waits) :=
      ⟨⟨hpass, hrest, noWithhold hw, sweepYields_of_holder (by simp)⟩, hstep, rfl, rfl⟩
    have hgrant := settles_grant_seeks (others := []) hquiet rfl hmay rfl rfl (by simp) hfault hnext
      (.inl ((isWorn_of (s := b) hr).trans hworn)) rfl hrestore haway
    have hdue := nextAct_sweepYields (s := waits) hh hpass hw hrest hmay rfl rfl hcls
    refine ⟨_, tells hd hq ha hstate ((congrArg settle houtcome).trans
      (Acts.settles (.one hdue hyields) hgrant).settle), ?_⟩
    exact ⟨rfl, rfl, rfl, rfl, rfl, rfl, rfl, rfl, rfl, rfl, rfl, rfl, rfl, rfl, rfl⟩

end Sys2Proof.Machine
end

section
/-!
PROOFS. The commands that load and clear the zone table and the ladders (R84 to R89, R93): each is judged by its
operands, LOAD RUNG by its ladder's rung count too, and changes one entry of its table or none.
-/

namespace Sys2Proof.Machine

variable {s : State}

/-! ### A command that sets the tables -/

/-- A command that answers by its operands and the tables, and changes at most the tables (R182). -/
theorem exec_setsTables {dt tag : Nat} {b : State} {T : Tables} {c : Instr} {reply : State → State × Reply}
    {r : Reply}
    (haccepts : acceptsFrame s = true) (hbegin : begin dt s = b)
    (hexec : exec c s = .next (onFrame (fun s => answer tag (reply s)) (begin dt s)))
    (hreply : reply (fieldEnds b) = ({ fieldEnds b with tables := T }, r)) :
    exec c s = .next (answered tag r.result.code (padTo 5 r.header ++ r.body) { b with tables := T }) :=
  exec_replies (t := { b with tables := T }) haccepts hexec (by rw [hbegin]; exact hreply)

/-! ### Zones -/

/-- LOAD ZONE's operands are in their ranges, the head ANY included (R93). -/
abbrev ZoneInRange (n h lo hi l : Nat) : Prop :=
  n ≤ 15 ∧ (h ≤ 15 ∨ h = 4095) ∧ lo ≤ 1019 ∧ hi ≤ 1019 ∧ lo ≤ hi ∧ l ≤ 7

section
variable {n h lo hi l : Nat}

theorem loadZoneReply_inRange (hin : ZoneInRange n h lo hi l) :
    loadZoneReply n h lo hi l s =
      ({ s with tables.zones := s.tables.zones.set n (some ⟨if h = 4095 then none else some h, lo, hi, l⟩) },
        doneWith [n, h, lo, hi, l]) := by
  have hjudged : ¬(15 < n ∨ (15 < h ∧ h ≠ absentUnit) ∨ 1019 < lo ∨ 1019 < hi ∨ hi < lo ∨ 7 < l) := by
    simp only [absentUnit]; omega
  exact if_neg hjudged

theorem loadZoneReply_outOfRange (hout : ¬ZoneInRange n h lo hi l) :
    loadZoneReply n h lo hi l s = (s, refuse .range) := by
  have hjudged : 15 < n ∨ (15 < h ∧ h ≠ absentUnit) ∨ 1019 < lo ∨ 1019 < hi ∨ hi < lo ∨ 7 < l := by
    simp only [absentUnit]; omega
  exact if_pos hjudged

end

/-- Settles O41: each command's reply by its judgement of the operands. -/
theorem zonesAreSet : Obligations.ZonesAreSet := by
  intro dt tag n h lo hi l s haccepts
  obtain ⟨work, idle, hbegin⟩ := begin_changes dt s
  rw [hbegin]
  intro b inRange
  refine ⟨?load, ?clear⟩
  case load =>
    by_cases hin : ZoneInRange n h lo hi l
    · rw [if_pos (decide_eq_true hin)]
      exact exec_setsTables haccepts hbegin (reply := loadZoneReply n h lo hi l) rfl (loadZoneReply_inRange hin)
    · rw [if_neg (by simpa only [inRange, decide_eq_true_eq] using hin)]
      exact exec_setsTables haccepts hbegin (reply := loadZoneReply n h lo hi l) rfl (loadZoneReply_outOfRange hin)
  case clear =>
    by_cases hn : n ≤ 15
    · rw [if_pos hn]
      exact exec_setsTables haccepts hbegin (reply := clearZoneReply n) rfl (if_neg (Nat.not_lt.2 hn))
    · rw [if_neg hn]
      exact exec_setsTables haccepts hbegin (reply := clearZoneReply n) rfl (if_pos (Nat.not_le.1 hn))

/-! ### A rung record as received (R85, R206) -/

theorem strobeOf_eq : ∀ n, strobeOf n = if n ≤ 2 then some ((strobeOf n).getD .nominal) else none
  | 0 | 1 | 2 => rfl
  | n + 3 => by simp [strobeOf]

theorem offsetOf_eq : ∀ n, offsetOf n = if n ≤ 2 then some ((offsetOf n).getD .centre) else none
  | 0 | 1 | 2 => rfl
  | n + 3 => by simp [offsetOf]

theorem onFailureOf_eq : ∀ n, onFailureOf n = if n ≤ 2 then some ((onFailureOf n).getD .cont) else none
  | 0 | 1 | 2 => rfl
  | n + 3 => by simp [onFailureOf]

/-- The enumerated fields of a rung record's two units are in their lists (R85). -/
abbrev FieldsListed (r0 r1 : Nat) : Prop := r0 / 256 % 16 ≤ 2 ∧ r0 / 16 % 16 ≤ 2 ∧ r1 % 16 ≤ 2

/-- The rung record two units carry, its reads clamped (R85, R206). -/
abbrev rungCarried (r0 r1 : Nat) : Rung where
  strobe := (strobeOf (r0 / 256 % 16)).getD .nominal
  offset := (offsetOf (r0 / 16 % 16)).getD .centre
  reads := max 1 (min (r0 % 16) 7)
  restoreFirst := r1.testBit 11
  resetCopies := r1.testBit 10
  voteAfter := r1.testBit 9
  onFailure := (onFailureOf (r1 % 16)).getD .cont

section
variable {r0 r1 : Nat}

theorem rungOf_listed (h : FieldsListed r0 r1) : rungOf r0 r1 = some (rungCarried r0 r1) := by
  obtain ⟨hstrobe, hoffset, hfailure⟩ := h
  rw [rungOf, strobeOf_eq (r0 / 256 % 16), offsetOf_eq (r0 / 16 % 16), onFailureOf_eq (r1 % 16), if_pos hstrobe,
    if_pos hoffset, if_pos hfailure]
  rfl

theorem rungOf_unlisted (h : ¬FieldsListed r0 r1) : rungOf r0 r1 = none := by
  rw [rungOf, strobeOf_eq (r0 / 256 % 16), offsetOf_eq (r0 / 16 % 16), onFailureOf_eq (r1 % 16)]
  by_cases hstrobe : r0 / 256 % 16 ≤ 2 <;> by_cases hoffset : r0 / 16 % 16 ≤ 2
  · simp [hstrobe, hoffset, show ¬r1 % 16 ≤ 2 from fun hfailure => h ⟨hstrobe, hoffset, hfailure⟩]
  all_goals simp [hstrobe, hoffset]

/-! ### LOAD RUNG's judgement (R88) -/

variable {k n : Nat}

theorem loadRungReply_badRung (h : ¬FieldsListed r0 r1) : loadRungReply k n r0 r1 s = (s, refuse .range) := by
  simp only [loadRungReply, rungOf_unlisted h, ite_self]

variable (hk : ¬7 < k) (hrung : FieldsListed r0 r1)
include hk hrung

theorem loadRungReply_gap (hgap : (ladderOf s k).rungs.length < n) :
    loadRungReply k n r0 r1 s = (s, refuse .range) := by
  simp only [loadRungReply, rungOf_listed hrung, if_neg hk, if_neg (Nat.lt_asymm hgap), if_neg (Nat.ne_of_gt hgap)]

theorem loadRungReply_full (hcount : (ladderOf s k).rungs.length = 16) :
    loadRungReply k 16 r0 r1 s = (s, refuse .full) := by
  simp [loadRungReply, rungOf_listed hrung, if_neg hk, hcount, Config.rungRoom]

/-- A rung loaded at or before the list's end takes its place in the list, where it may replace one. -/
theorem loadRungReply_placed (hplace : n ≤ (ladderOf s k).rungs.length) (hroom : n < 16) :
    loadRungReply k n r0 r1 s =
      (putLadder k { ladderOf s k with
          rungs := (ladderOf s k).rungs.take n ++ [rungCarried r0 r1] ++ (ladderOf s k).rungs.drop (n + 1) } s,
        doneWith ([k, n] ++ (rungCarried r0 r1).units ++ [max (ladderOf s k).rungs.length (n + 1)])) := by
  simp only [loadRungReply, rungOf_listed hrung, if_neg hk]
  rcases Nat.lt_or_eq_of_le hplace with hinside | hend
  · rw [if_pos hinside, List.set_eq_take_append_cons_drop, if_pos hinside, Nat.max_eq_left hinside]
    simp
  · rw [if_neg (Nat.not_lt.2 hend.ge), if_pos hend, if_pos (hend ▸ hroom),
      List.take_of_length_le hend.ge, List.drop_of_length_le (by omega), List.append_nil, Nat.max_eq_right (by omega), ← hend]

end

/-! ### The obligation -/

/-- Settles O42: each command's reply by its judgement of the operands, LOAD RUNG's in the order of R88. -/
theorem laddersAreSet : Obligations.LaddersAreSet := by
  intro dt tag k n m l budget r0 r1 s haccepts
  obtain ⟨work, idle, hbegin⟩ := begin_changes dt s
  rw [hbegin]
  intro b lad put m' l' budget' rung valid hroom
  have hvalid : valid = false ↔ ¬FieldsListed r0 r1 := decide_eq_false_iff_not
  refine ⟨?header, ?load, ?clear⟩
  case header =>
    by_cases hk : k ≤ 7
    · have hl : clamp 0 8 l = l' := Nat.zero_max _
      rw [if_pos hk, ← hl]
      exact exec_setsTables haccepts hbegin (reply := setLadderHeaderReply k m l budget) rfl (if_neg (Nat.not_lt.2 hk))
    · rw [if_neg hk]
      exact exec_setsTables haccepts hbegin (reply := setLadderHeaderReply k m l budget) rfl (if_pos (Nat.not_le.1 hk))
  case load =>
    have loads {T : Tables} {r : Reply}
        (hreply : loadRungReply k n r0 r1 (fieldEnds b) = ({ fieldEnds b with tables := T }, r)) :=
      exec_setsTables (c := .loadRung dt tag k n r0 r1) haccepts hbegin rfl hreply
    by_cases hk : 7 < k
    · rw [if_pos (.inl hk)]
      exact loads (if_pos hk)
    by_cases hrung : FieldsListed r0 r1
    case neg =>
      rw [if_pos (.inr (.inl (hvalid.2 hrung)))]
      exact loads (loadRungReply_badRung hrung)
    by_cases hgap : lad.rungs.length < n
    · rw [if_pos (.inr (.inr hgap))]
      exact loads (loadRungReply_gap (s := fieldEnds b) hk hrung hgap)
    rw [if_neg (by simp [hk, hgap, hvalid, hrung])]
    have hplace : n ≤ lad.rungs.length := Nat.not_lt.1 hgap
    by_cases hn : n = 16
    · subst hn
      rw [if_pos rfl]
      exact loads (loadRungReply_full (s := fieldEnds b) hk hrung (le_antisymm hroom hplace))
    · rw [if_neg hn]
      exact loads (loadRungReply_placed (s := fieldEnds b) hk hrung hplace (by omega))
  case clear =>
    by_cases hk : k ≤ 7
    · rw [if_pos hk]
      exact exec_setsTables haccepts hbegin (reply := clearLadderReply k) rfl (if_neg (Nat.not_lt.2 hk))
    · rw [if_neg hk]
      exact exec_setsTables haccepts hbegin (reply := clearLadderReply k) rfl (if_pos (Nat.not_le.1 hk))

end Sys2Proof.Machine
end

section
/-!
PROOFS. The voted image and its weak bits (R107 to R109): the columns of the copies' bits are, position by position, the
copies' own bits, so that a field position of the image, its margin and the list of weak bits are read off the copies.
-/

namespace Sys2Proof.Machine

/-! ### The bits of a field -/

theorem bits_pos (st : Straps) : 0 < st.bits := by
  unfold Straps.bits
  cases st.width <;> decide

/-- The bit of a field at a position is the one its bit list has there (R6). -/
theorem fieldBits_getElem? {b : Nat} {f : Field} {p : Nat} (hb : 0 < b) (hp : p < f.length * b) :
    (fieldBits b f)[p]? = some (bitAt b f p) := by
  induction f generalizing p with
  | nil => simp at hp
  | cons w ws ih =>
    have hbits : fieldBits b (w :: ws) = wordBits b w ++ fieldBits b ws := rfl
    rw [hbits]
    rcases Nat.lt_or_ge p b with hfirst | hlater
    · rw [List.getElem?_append_left (by simpa using hfirst)]
      simp [wordBits, bitAt, hfirst, Nat.div_eq_of_lt hfirst, Nat.mod_eq_of_lt hfirst]
    · obtain ⟨q, rfl⟩ := Nat.exists_eq_add_of_le hlater
      have hq : q < ws.length * b := by
        rw [List.length_cons, Nat.succ_mul] at hp
        omega
      rw [List.getElem?_append_right (by simp), wordBits_length, Nat.add_sub_cancel_left, ih hq]
      simp [bitAt, Nat.add_div_left q hb, Nat.add_mod_left]

theorem fieldBits_getD {b : Nat} {f : Field} {p : Nat} (hb : 0 < b) (hp : p < f.length * b) :
    (fieldBits b f).getD p false = bitAt b f p := by
  rw [List.getD_eq_getElem?_getD, fieldBits_getElem? hb hp, Option.getD_some]

/-- The bits of the field spelled by a bit list that fills it are the list. -/
theorem fieldBits_spelled {b n : Nat} {bs : List Bool} (h : bs.length = n * b) :
    fieldBits b ((groups b n bs).map bitsToNat) = bs := by
  have hgroups : ∀ g ∈ groups b n bs, wordBits b (bitsToNat g) = g := fun g hg => by
    have hspelled := wordBits_bitsToNat g
    rwa [length_of_mem_groups hg] at hspelled
  rw [fieldBits, List.flatMap_map, List.flatMap_congr hgroups, List.flatMap_id', groups_flatten (Nat.le_of_eq h), h,
    Nat.sub_self, List.replicate_zero, List.append_nil]

/-! ### The columns -/

/-- The column at a position holds each row's bit there (R107). -/
theorem columns_eq (n : Nat) (rows : List (List Bool)) :
    columns n rows = (List.range n).map fun p => rows.map fun r => r.getD p false := by
  induction n generalizing rows with
  | zero => rfl
  | succ n ih =>
    simp [columns, ih, List.range_succ_eq_map, Function.comp_def, List.head?_eq_getElem?]

/-- The copies' bits at a field position, in capture order (R107). -/
def columnAt (b : Nat) (copies : List Field) (p : Nat) : List Bool := copies.map fun f => bitAt b f p

/-- The copies' columns are their bits at the field positions in order. -/
theorem copyColumns_eq {b n : Nat} {copies : List Field} (hb : 0 < b) (h : ∀ f ∈ copies, f.length = n) :
    columns (n * b) (copies.map (fieldBits b)) = (List.range (n * b)).map (columnAt b copies) := by
  rw [columns_eq]
  refine List.map_congr_left fun p hp => ?_
  rw [List.map_map]
  refine List.map_congr_left fun f hf => ?_
  exact fieldBits_getD hb (by rw [h f hf]; exact List.mem_range.1 hp)

/-! ### A column's value and margin -/

/-- The copies whose bit at a position is 1 (R107). -/
def onesAt (b : Nat) (copies : List Field) (p : Nat) : Nat := copies.countP fun f => bitAt b f p

/-- The copies whose bit at a position is 0 (R107). -/
def zerosAt (b : Nat) (copies : List Field) (p : Nat) : Nat := copies.countP fun f => !bitAt b f p

theorem columnAt_ones (b : Nat) (copies : List Field) (p : Nat) :
    (columnAt b copies p).count true = onesAt b copies p := by
  simp [columnAt, onesAt, List.count, List.countP_map, Function.comp_def]

theorem columnAt_zeros (b : Nat) (copies : List Field) (p : Nat) :
    (columnAt b copies p).length - onesAt b copies p = zerosAt b copies p := by
  have hsplit := List.length_eq_countP_add_countP (fun f => bitAt b f p) (l := copies)
  simp only [columnAt, List.length_map, onesAt, zerosAt, Bool.not_eq_true] at hsplit ⊢
  rw [hsplit, Nat.add_sub_cancel_left]
  refine List.countP_congr fun f _ => by simp

theorem columnAt_newest {b p : Nat} {copies : List Field} {newest : Field} (h : copies.getLast? = some newest) :
    (columnAt b copies p).getLastD false = bitAt b newest p := by
  rw [List.getLastD_eq_getLast?, columnAt, List.getLast?_map, h, Option.map_some, Option.getD_some]

theorem votedBit_columnAt {b p : Nat} {copies : List Field} {newest : Field} (h : copies.getLast? = some newest) :
    votedBit (columnAt b copies p) =
      if zerosAt b copies p < onesAt b copies p then true
      else if onesAt b copies p < zerosAt b copies p then false else bitAt b newest p := by
  simp only [votedBit, columnAt_ones, columnAt_zeros, columnAt_newest h]

theorem marginOf_columnAt (b : Nat) (copies : List Field) (p : Nat) : marginOf (columnAt b copies p) =
    max (onesAt b copies p) (zerosAt b copies p) - min (onesAt b copies p) (zerosAt b copies p) := by
  simp only [marginOf, columnAt_ones, columnAt_zeros]

/-- Settles O9, the image's bits being the columns' voted values. -/
theorem votedImageIsMajority : Obligations.VotedImageIsMajority := by
  intro st owner inp newest p hnewest hlen hp
  have hb := bits_pos st
  have hspelled : fieldBits st.bits (startVote st owner inp false).image =
      (List.range ((st.data + 1) * st.bits)).map fun q => votedBit (columnAt st.bits inp.copies q) := by
    simp only [startVote, copyColumns_eq hb hlen, List.map_map]
    exact fieldBits_spelled (by simp)
  have hin : p < (startVote st owner inp false).image.length * st.bits := by simpa [startVote, groups_length] using hp
  have hbit := fieldBits_getElem? hb hin
  rw [hspelled, List.getElem?_map, List.getElem?_range hp, Option.map_some, Option.some.injEq] at hbit
  exact hbit.symm.trans (votedBit_columnAt hnewest)

/-! ### The weak bits -/

/-- The weak positions are those whose column's margin is below M, ascending (R108, R109). -/
theorem weakFrom_range' (m : Nat) (col : Nat → List Bool) (first n : Nat) :
    weakFrom m first ((List.range' first n).map col) =
      (List.range' first n).filter fun p => decide (marginOf (col p) < m) := by
  induction n generalizing first with
  | zero => rfl
  | succ n ih => simp only [List.range'_succ, List.map_cons, weakFrom, ih, List.filter_cons, decide_eq_true_eq]

theorem weakFrom_range (m n : Nat) (col : Nat → List Bool) :
    weakFrom m 0 ((List.range n).map col) = (List.range n).filter fun p => decide (marginOf (col p) < m) := by
  rw [List.range_eq_range']
  exact weakFrom_range' m col 0 n

/-- Settles O10, from the list of positions with a margin below M. -/
theorem weakBitsAreCounted : Obligations.WeakBitsAreCounted := by
  intro st owner inp hlen weak v
  have hweak : weakFrom inp.m 0 (columns ((st.data + 1) * st.bits) (inp.copies.map (fieldBits st.bits))) =
      (List.range ((st.data + 1) * st.bits)).filter weak := by
    rw [copyColumns_eq (bits_pos st) hlen, weakFrom_range]
    simp only [marginOf_columnAt]
    rfl
  have hcount : v.weakCount = ((List.range ((st.data + 1) * st.bits)).filter weak).length := congrArg List.length hweak
  have hbits : v.weakBits = if v.weakCount ≤ 8 then (List.range ((st.data + 1) * st.bits)).filter weak else [] := by
    rw [← hweak]
    rfl
  exact ⟨hcount.trans List.countP_eq_length_filter.symm, fun hfew => hbits.trans (if_pos hfew)⟩

end Sys2Proof.Machine
end

section
/-!
PROOFS. The search over a vote's weak bits (R110 to R113): from the combination a vote has reached it finds the first of
the passing combinations that follow and counts them up to 2, which decides the vote's end.
-/

namespace Sys2Proof.Machine

/-! ### The search -/

/-- The passing ones of the `n` combinations after combination `c` (R112). -/
def passingAfter (b : Nat) (image : Field) (weakBits : List Nat) (c n : Nat) : List Nat :=
  (List.range' (c + 1) n).filter fun i => passes b (combinationOf b image weakBits i)

/-- One combination more: it is the first of those that pass, or passes and is none of them. -/
theorem passingAfter_succ (b : Nat) (image : Field) (weakBits : List Nat) (c n : Nat) :
    passingAfter b image weakBits c (n + 1) =
      if passes b (combinationOf b image weakBits (c + 1)) then (c + 1) :: passingAfter b image weakBits (c + 1) n
      else passingAfter b image weakBits (c + 1) n := by
  rw [passingAfter, List.range'_succ, List.filter_cons]
  rfl

variable {b n : Nat} {image : Field} {weakBits : List Nat} {v : Vote}

/-- A search changes the combination reached, the passes counted and the first pass alone. -/
theorem search_changes (b : Nat) (image : Field) (weakBits : List Nat) (n : Nat) (v : Vote) : ∃ c k p,
    search b image weakBits n v = { v with combination := c, passes := k, firstPass := p } := by
  induction n generalizing v with
  | zero => exact ⟨_, _, _, rfl⟩
  | succ n ih =>
    rw [search]
    dsimp only
    split
    · split
      · obtain ⟨c, k, p, h⟩ := ih
          { v with combination := v.combination + 1, passes := 1, firstPass := some (v.combination + 1) }
        exact ⟨c, k, p, h⟩
      · exact ⟨_, _, _, rfl⟩
    · obtain ⟨c, k, p, h⟩ := ih { v with combination := v.combination + 1 }
      exact ⟨c, k, p, h⟩

/-- With one pass found the search keeps it, and a second pass ends it (R113). -/
theorem search_afterFirst {c : Nat} (hfirst : v.firstPass = some c) (hone : v.passes = 1) :
    (search b image weakBits n v).firstPass = some c ∧
      (search b image weakBits n v).passes = if passingAfter b image weakBits v.combination n = [] then 1 else 2 := by
  induction n generalizing v with
  | zero => exact ⟨hfirst, hone⟩
  | succ n ih =>
    rw [passingAfter_succ, search]
    by_cases hpass : passes b (combinationOf b image weakBits (v.combination + 1)) = true
    · simp [hpass, hfirst]
    · simp only [if_neg hpass]
      exact ih (v := { v with combination := v.combination + 1 }) hfirst hone

/-- With no pass found yet the search finds the first that follows, and counts no more than 2 (R112, R113). -/
theorem search_fromStart (hnone : v.firstPass = none) (hzero : v.passes = 0) :
    (search b image weakBits n v).firstPass = (passingAfter b image weakBits v.combination n).head? ∧
      (search b image weakBits n v).passes = min 2 (passingAfter b image weakBits v.combination n).length := by
  induction n generalizing v with
  | zero => exact ⟨hnone, hzero⟩
  | succ n ih =>
    rw [passingAfter_succ, search]
    by_cases hpass : passes b (combinationOf b image weakBits (v.combination + 1)) = true
    · obtain ⟨hfirst, hcount⟩ := search_afterFirst (b := b) (n := n) (image := image) (weakBits := weakBits)
        (v := { v with combination := v.combination + 1, passes := 1, firstPass := some (v.combination + 1) }) rfl rfl
      simp only [if_pos hpass, hnone, hfirst, hcount, List.head?_cons, List.length_cons, true_and]
      split
      next h => simp [h]
      next h =>
        have := List.length_pos_iff.2 h
        omega
    · simp only [if_neg hpass]
      exact ih (v := { v with combination := v.combination + 1 }) hnone hzero

/-! ### The end of a vote -/

/-- The combinations 1 to 2^w − 1 that pass (R112). -/
theorem passingAfter_zero (b : Nat) (image : Field) (weakBits : List Nat) (n : Nat) :
    passingAfter b image weakBits 0 n = (List.range (n + 1)).filter fun c =>
      decide (0 < c) && passes b (combinationOf b image weakBits c) := by
  have hpositive : ∀ c ∈ List.range' 1 n, passes b (combinationOf b image weakBits c) =
      (decide (0 < c) && passes b (combinationOf b image weakBits c)) := fun c hc => by
    have hpos : 0 < c := (List.mem_range'_1.1 hc).1
    rw [decide_eq_true hpos, Bool.true_and]
  rw [passingAfter, List.range_eq_range', List.range'_succ, List.filter_cons, if_neg (by simp),
    List.filter_congr hpositive]

/-- A vote whose image fails with a weak count within the limit ends by its passing combinations (R111, R113). -/
theorem voteEnd_searched {st : Straps} (hfails : passes st.bits v.image = false) (hweak : 0 < v.weakCount)
    (hlimit : v.weakCount ≤ v.inputs.l) (hstart : v.combination = 0) (hnone : v.firstPass = none)
    (hzero : v.passes = 0) :
    voteEnd st v =
      match passingAfter st.bits v.image v.weakBits 0 (2 ^ v.weakCount - 1) with
      | [] => .failed
      | [c] => .acceptedSearch (combinationOf st.bits v.image v.weakBits c) (flipsOf v.weakCount c)
      | _ => .ambiguous := by
  obtain ⟨hfirst, hcount⟩ := search_fromStart (b := st.bits) (n := 2 ^ v.weakCount - 1) (image := v.image)
    (weakBits := v.weakBits) hnone hzero
  obtain ⟨c, k, p, hsearch⟩ := search_changes st.bits v.image v.weakBits (2 ^ v.weakCount - 1) v
  rw [hstart, hsearch] at hfirst hcount
  rw [voteEnd, if_neg (by simp [hfails]), if_neg hweak.ne', if_neg (Nat.not_lt.2 hlimit), hsearch]
  obtain rfl : p = _ := hfirst
  obtain rfl : k = _ := hcount
  match passingAfter st.bits v.image v.weakBits 0 (2 ^ v.weakCount - 1) with
  | [] => rfl
  | [_] => rfl
  | _ :: _ :: cs => exact if_neg (by simp)

/-- Settles O11, by the list of the combinations that pass. -/
theorem voteEndsByItsPasses : Obligations.VoteEndsByItsPasses := by
  intro st owner inp v good found
  have hfound : found = passingAfter st.bits v.image v.weakBits 0 (2 ^ v.weakCount - 1) := by
    rw [passingAfter_zero, Nat.sub_add_cancel Nat.one_le_two_pow]
  refine ⟨fun hpass => if_pos hpass, fun hfails => ⟨fun hnone => ?_, fun hweak hover => ?_, fun hweak hlimit => ?_⟩⟩
  · rw [voteEnd, if_neg (by simp [hfails]), if_pos hnone]
  · rw [voteEnd, if_neg (by simp [hfails]), if_neg hweak.ne']
    exact if_pos hover
  · have hend := voteEnd_searched (v := v) hfails hweak hlimit rfl rfl rfl
    rw [← hfound] at hend
    refine ⟨fun h => by rw [hend, h], fun c h => by rw [hend, h], fun htwo => ?_⟩
    match hf : passingAfter st.bits v.image v.weakBits 0 (2 ^ v.weakCount - 1) with
    | [] | [_] => simp [hfound, hf] at htwo
    | _ :: _ :: _ => rw [hend, hfound, hf]

end Sys2Proof.Machine
end

section
/-!
PROOFS. The end of a recovery read's capture (R12, R67): the read is charged, and the ACTIVE head job reads on (R97),
votes (R71, R98, R105), goes on to another rung (R99), or ends RECOVERED (R77) or LOST (R79).
-/

namespace Sys2Proof.Machine

variable {s b : State} {j : Job} {rest : List Job} {g next : Rung} {r : HeadRecord} {w : Withhold}

/-! ### The capture -/

/-- A recovery capture that takes data ends full: READ GATE falls, and the field is judged (R12, R67). -/
theorem exec_captureFull_recovery {dt : Nat} {c : Capture} (hbegin : begin dt s = b) (hc : b.drv.capture = some c)
    (hparty : c.party = .recovery) (hm : c.matched = true) (hg : b.drv.readGate = true) (hout : b.out = [])
    (field : List Nat) (rate : Nat) : exec (.captureFull dt field rate) s =
      .next (settle (recoveryFull c.addr (takeField b.straps field)
        { b with drv.readGate := false, drv.capture := none, out := [.readGate false] })) := by
  simp [exec, execCaptureFull, hbegin, hc, takingData, hm, hg, captureEndsFull, hparty, lowerReadGate_eq, hout]

/-- A recovery capture that takes data ends SHORT: READ GATE falls, and the read is charged (R12, R67). -/
theorem exec_readClockTimeout_recovery {dt : Nat} {c : Capture} (hbegin : begin dt s = b) (hc : b.drv.capture = some c)
    (hparty : c.party = .recovery) (hm : c.matched = true) (hg : b.drv.readGate = true) (hout : b.out = []) :
    exec (.readClockTimeout dt) s = .next (settle (chargeRead c.addr
        { b with drv.readGate := false, drv.capture := none, out := [.readGate false] })) := by
  simp [exec, execReadClockTimeout, hbegin, hc, takingData, hm, hg, captureEndsShort, hparty, lowerReadGate_eq, hout]

/-! ### The copies -/

theorem addCopy_eq (f : Field) (copies : List Field) :
    addCopy f copies = (copies ++ [f]).drop (copies.length + 1 - 7) := by
  simp [addCopy, Config.copyRoom]

theorem length_addCopy (f : Field) (copies : List Field) : (addCopy f copies).length = min (copies.length + 1) 7 := by
  simp only [addCopy_eq, List.length_drop, List.length_append, List.length_singleton]
  omega

theorem addCopy_newest (f : Field) (copies : List Field) : (addCopy f copies).getLast? = some f := by
  rw [addCopy_eq, List.getLast?_drop, if_neg (by simp), List.getLast?_concat]

theorem bestImage_eq (s : State) : bestImage s = s.seq.lastVote.or s.seq.copies.getLast? := by
  cases hvote : s.seq.lastVote <;> simp [bestImage, hvote]

/-! ### The read charged -/

/-- The job with one more read spent and done (R67). -/
abbrev chargedJob (j : Job) : Job := { j with readsSpent := j.readsSpent + 1, readsDone := j.readsDone + 1 }

/-- RECOVERY's hands are free after a capture, and the ACTIVE head job stands in its working rung (R65, R97). -/
structure ReadEnded (j : Job) (rest : List Job) (g : Rung) (s : State) : Prop where
  queue : s.seq.queue = j :: rest
  others : ∀ x ∈ rest, x.addr ≠ j.addr
  active : j.state = .active
  rung : s.seq.workingRung = some g
  holder : s.drv.holder = .recovery
  handsFree : HandsFree s

/-- The state with the read charged to the head job (R67). -/
abbrev chargedTo (j : Job) (rest : List Job) (s : State) : State := { s with seq.queue := chargedJob j :: rest }

theorem updateJob_charges (h : ReadEnded j rest g s) :
    updateJob j.addr (fun j => { j with readsSpent := j.readsSpent + 1, readsDone := j.readsDone + 1 }) s =
      chargedTo j rest s :=
  updateJob_head h.queue h.others

/-- After the rung's last read the rung ends, else the job goes on in it (R67, R97, R98). -/
theorem chargeRead_eq (h : ReadEnded j rest g s) : chargeRead j.addr s =
    if g.reads ≤ j.readsDone + 1 then endRung j.addr g (chargedTo j rest s) else chargedTo j rest s := by
  have hjob : jobOf (chargedTo j rest s) j.addr = some (chargedJob j) := jobOf_head (s := chargedTo j rest s) rfl
  simp only [chargeRead, updateJob_charges h, hjob, h.rung]

/-! ### The job reads on -/

/-- A read of a rung issued to the head job (R96, R97). -/
abbrev readIssued (j : Job) (rest : List Job) (copies : List Field) (g : Rung) (s : State) : State :=
  { s with
    seq := ⟨j :: rest, copies, s.seq.lastVote, some g⟩
    drv.capture := some ⟨.recovery, j.addr, false, 0⟩
    out := s.out ++ [.order (.targetRead j.addr.sec)] }

/-- RECOVERY's hands are free, so that nothing comes before what it does next. -/
theorem quiescent_recovering (hh : s.drv.holder = .recovery) (hfree : HandsFree s) (hw : s.ctl.withhold = none) :
    Quiescent s := by
  obtain ⟨hstep, -, hcapture, hepisode, hpass, hrest⟩ := hfree
  exact ⟨⟨hpass, hrest, noWithhold hw, sweepYields_of_holder (by simp [hh])⟩, hstep, hcapture, hepisode⟩

/-- The ACTIVE head job goes on in its working rung (R97). -/
theorem nextAct_working (hh : s.drv.holder = .recovery) (hfree : HandsFree s) (hw : s.ctl.withhold = none)
    (hq : s.seq.queue = j :: rest) (hactive : j.state = .active) (hg : s.seq.workingRung = some g) :
    nextAct s = some .job := by
  obtain ⟨-, htravel, -⟩ := id hfree
  rw [nextAct_of_quiescent (quiescent_recovering hh hfree hw)]
  simp [holderAct, hh, htravel, headJob, hq, hactive, hg]

/-- A VOTING head job holds the drive with nothing due before its vote completes (R71). -/
theorem nothingDue_voting (hh : s.drv.holder = .recovery) (hfree : HandsFree s) (hw : s.ctl.withhold = none)
    (hq : s.seq.queue = j :: rest) (hvoting : j.state = .voting) : NothingDue s := by
  obtain ⟨-, htravel, -⟩ := id hfree
  rw [NothingDue, nextAct_of_quiescent (quiescent_recovering hh hfree hw)]
  simp [holderAct, hh, htravel, headJob, hq, hvoting]

/-- With reads and budget left the rung's next read is made (R97). -/
theorem settle_chargeRead_reads (h : ReadEnded j rest g s) (hw : s.ctl.withhold = none)
    (hleft : j.readsDone + 1 < g.reads)
    (hbudget : j.readsSpent + 1 < effectiveBudget (isWorn s j.addr.head) (ladderOf s j.ladder).budget) :
    settle (chargeRead j.addr s) = readIssued (chargedJob j) rest s.seq.copies g s := by
  obtain ⟨-, htravel, -⟩ := h.handsFree
  rw [chargeRead_eq h, if_neg (Nat.not_le.2 hleft)]
  refine (settles_readsOn (s := chargedTo j rest s) (j := chargedJob j) ⟨rfl, h.active, h.rung, hleft, hbudget⟩
    (quiescent_recovering h.holder h.handsFree hw) h.holder htravel).settle.trans ?_
  rw [readIssued, ← h.rung]

/-! ### The rung ends -/

/-- The engine with a vote handed to it: in flight, or behind the one in flight (R105). -/
theorem handVote_eq (a : Addr) (inp : VoteInputs) (s : State) : handVote a inp s =
    { s with eng := match s.eng.inFlight with
      | none => ⟨some (startVote s.straps a inp false), s.eng.waiting⟩
      | some v => ⟨some v, some ⟨a, inp, false⟩⟩ } := by
  cases hin : s.eng.inFlight with
  | none => simp only [handVote, hin]
  | some v => simp only [handVote, hin]

/-- The rung asks for a vote and 2 copies are held (R71, R98). -/
theorem endRung_votes (hq : s.seq.queue = j :: rest) (hothers : ∀ x ∈ rest, x.addr ≠ j.addr)
    (hvote : g.voteAfter = true) (htwo : 2 ≤ s.seq.copies.length) : endRung j.addr g s =
      handVote j.addr ⟨s.seq.copies, (ladderOf s j.ladder).m, (ladderOf s j.ladder).l⟩
        { s with seq.queue := { j with state := .voting } :: rest } := by
  simp only [endRung, if_pos (And.intro hvote htwo), jobOf_head hq, updateJob_head hq hothers]

/-- With no vote asked for, or fewer than 2 copies held, the rung fails (R98). -/
theorem endRung_fails {a : Addr} (h : g.voteAfter = false ∨ s.seq.copies.length < 2) :
    endRung a g s = failRung a g.onFailure s := by
  refine if_neg fun ⟨hvote, htwo⟩ => ?_
  rcases h with h | h
  · simp [hvote] at h
  · omega

/-- The vote is handed over, and nothing is due before it completes (R71, R105). -/
theorem settle_chargeRead_votes (h : ReadEnded j rest g s) (hw : s.ctl.withhold = none)
    (hlast : j.readsDone + 1 = g.reads) (hvote : g.voteAfter = true) (htwo : 2 ≤ s.seq.copies.length) :
    settle (chargeRead j.addr s) = handVote j.addr ⟨s.seq.copies, (ladderOf s j.ladder).m, (ladderOf s j.ladder).l⟩
      { s with seq.queue := { chargedJob j with state := .voting } :: rest } := by
  rw [chargeRead_eq h, if_pos (Nat.le_of_eq hlast.symm)]
  refine settle_eq (endRung_votes (s := chargedTo j rest s) (j := chargedJob j) rfl h.others hvote htwo) ?_
  rw [handVote_eq]
  exact nothingDue_voting h.holder h.handsFree hw rfl rfl

/-! ### The rung that fails: another follows -/

/-- The job at the rung after a failed one (R99). -/
abbrev movedJob (act : OnFailure) (j : Job) : Job := { j with rungIndex := rungAfter act j.rungIndex, readsDone := 0 }

/-- An ACTIVE job goes on to a rung that it does not pass over (R90, R94, R95, R99). -/
theorem failRung_goesOn {act : OnFailure} (hq : s.seq.queue = j :: rest) (hothers : ∀ x ∈ rest, x.addr ≠ j.addr)
    (hactive : j.state = .active) (hact : act ≠ .stop) (hh : s.drv.holder = .recovery) (hpass : s.drv.passOn = .stays)
    (hg : (ladderOf s j.ladder).rungs[rungAfter act j.rungIndex]? = some next)
    (hworn : isWorn s j.addr.head = false ∨ next.offset = .centre) :
    failRung j.addr act s =
      { s with
        seq.queue := movedJob act j :: rest
        seq.workingRung := some next
        drv.travel := some (rungTravel (movedJob act j) next) } := by
  let there : State := { s with seq.queue := movedJob act j :: rest }
  have hholds : (s.drv.holder = .recovery ∧ s.drv.passOn = .stays) = True := by simp [hh, hpass]
  have hfails : failRung j.addr act s = goToRung (startRung j.addr there) := by
    cases act with
    | stop => exact absurd rfl hact
    | cont | skip =>
      simp only [failRung, jobOf_head hq, updateJob_head hq hothers, hholds, decide_true, if_true, ← hactive]
      rfl
  have hstart : startRung j.addr there = { there with seq.workingRung := some next } :=
    startRung_comes (s := there) (j := movedJob act j) rfl hothers (skipWorn_stays hg hworn _) hg (.inl rfl)
  rw [hfails, hstart]
  simp only [goToRung, headJob, there, List.head?_cons, hactive, if_true]

/-- On a drive that stands where the next rung reads, its first read follows at once (R95, R97, R99). -/
theorem settle_chargeRead_moves (h : ReadEnded j rest g s) (hw : s.ctl.withhold = none)
    (hlast : j.readsDone + 1 = g.reads) (hfails : g.voteAfter = false ∨ s.seq.copies.length < 2)
    (hact : g.onFailure ≠ .stop)
    (hg : (ladderOf s j.ladder).rungs[rungAfter g.onFailure j.rungIndex]? = some next)
    (hworn : isWorn s j.addr.head = false ∨ next.offset = .centre) (hrestore : next.restoreFirst = false)
    (hreads : 0 < next.reads)
    (hbudget : j.readsSpent + 1 < effectiveBudget (isWorn s j.addr.head) (ladderOf s j.ladder).budget)
    (hrecord : s.drv.record = ⟨some j.addr.cyl, some j.addr.head, some next.strobe, some next.offset⟩) :
    settle (chargeRead j.addr s) =
      readIssued (movedJob g.onFailure (chargedJob j)) rest (if next.resetCopies then [] else s.seq.copies) next s := by
  obtain ⟨hstep, htravel, hcapture, hepisode, hpass, hrest⟩ := h.handsFree
  let moved : Job := movedJob g.onFailure (chargedJob j)
  let going : State :=
    { s with
      seq.queue := moved :: rest
      seq.workingRung := some next
      drv.travel := some (rungTravel moved next) }
  have hgoing : chargeRead j.addr s = going := by
    rw [chargeRead_eq h, if_pos (Nat.le_of_eq hlast.symm), endRung_fails (s := chargedTo j rest s) hfails]
    exact failRung_goesOn (s := chargedTo j rest s) (j := chargedJob j) rfl h.others h.active hact h.holder hpass hg
      hworn
  have hquiet : Quiescent going :=
    ⟨⟨hpass, hrest, noWithhold hw, sweepYields_of_holder (by simp [going, h.holder])⟩, hstep, hcapture, hepisode⟩
  obtain ⟨n, hn, hplace⟩ := acts_rungInPlace (s := going) ⟨hquiet, .inl h.holder⟩ rfl hrestore hrecord
  have hread := settles_rungReached (s := { leaving (rungTravel moved next) [] going with
      seq.copies := if next.resetCopies && decide (moved.readsDone = 0) then [] else s.seq.copies })
    (j := moved) (g := next) hquiet rfl rfl rfl rfl h.holder ⟨rfl, h.active, rfl, hreads, hbudget⟩
  rw [hgoing, (hplace.settles hread).settle]
  simp [going, moved, ← htravel]

/-! ### The job ends -/

/-- The only job LOST, its drive no one's (R79). -/
abbrev lostAlone (j : Job) (r : HeadRecord) (image : Option Field) (s : State) : State :=
  { lostAs j.lostKind j r image s with seq := ⟨[], [], none, none⟩, drv.holder := .nobody }

theorem nothingDue_lostAlone {image : Option Field} (hpass : s.drv.passOn = .stays) (hrest : restDue s = false)
    (hw : s.ctl.withhold = none) (hsweep : s.sweep.state = .idle) : NothingDue (lostAlone j r image s) :=
  nothingDue_of_nobody rfl hpass hw hrest (headMayRun_of_empty rfl) (sweepMayRun_of_idle hsweep)

section
variable (h : ReadEnded j [] g s) (hw : s.ctl.withhold = none) (hsweep : s.sweep.state = .idle)
  (hclaim : s.map.claim = none) (hr : s.heads[j.addr.head]? = some r)
include h hw hsweep hclaim hr

/-- With the read budget reached the job ends LOST before another read (R79, R96). -/
theorem settle_chargeRead_spent (hleft : j.readsDone + 1 < g.reads)
    (hbudget : effectiveBudget (isWorn s j.addr.head) (ladderOf s j.ladder).budget ≤ j.readsSpent + 1) :
    settle (chargeRead j.addr s) = lostAlone (chargedJob j) r (s.seq.lastVote.or s.seq.copies.getLast?) s := by
  obtain ⟨-, -, -, -, hpass, hrest⟩ := h.handsFree
  have hlost := endLost_only (s := chargedTo j [] s) (j := chargedJob j) (kind := j.lostKind) h.handsFree h.holder rfl
    h.active hw hclaim hsweep hr
  have hdue : nextAct (chargedTo j [] s) = some .job :=
    nextAct_working (j := chargedJob j) h.holder h.handsFree hw rfl h.active h.rung
  have hends : doAct .job (chargedTo j [] s) = endLost j.addr j.lostKind (chargedTo j [] s) := by
    show runJob (chargedTo j [] s) = _
    simp only [runJob, headJob, List.head?_cons, h.rung, if_neg (Nat.not_le.2 hleft), readSector]
    exact if_pos hbudget
  rw [chargeRead_eq h, if_neg (Nat.not_le.2 hleft)]
  exact (Settles.of_acts (.one hdue (hends.trans hlost)) (nothingDue_lostAlone hpass hrest hw hsweep)).settle

/-- By END, or with no rung left, the job ends LOST where its rung's failure brings it (R79, R99). -/
theorem settle_chargeRead_ends (hlast : j.readsDone + 1 = g.reads)
    (hfails : g.voteAfter = false ∨ s.seq.copies.length < 2)
    (hends : g.onFailure = .stop ∨ (ladderOf s j.ladder).rungs.length ≤ rungAfter g.onFailure j.rungIndex) :
    settle (chargeRead j.addr s) = lostAlone
      (if g.onFailure = .stop then chargedJob j else movedJob g.onFailure (chargedJob j)) r
      (s.seq.lastVote.or s.seq.copies.getLast?) s := by
  obtain ⟨-, -, -, -, hpass, hrest⟩ := id h.handsFree
  have hdrive : LeavesDrive (chargedJob j) (chargedTo j [] s) := .inr ⟨h.holder, h.handsFree, by simp [h.active]⟩
  rw [chargeRead_eq h, if_pos (Nat.le_of_eq hlast.symm), endRung_fails (s := chargedTo j [] s) hfails]
  refine settle_eq ?_ (nothingDue_lostAlone hpass hrest hw hsweep)
  refine (failRung_ends (s := chargedTo j [] s) (j := chargedJob j) rfl hsweep hdrive hclaim hr hends).trans
    ((if_neg (by simp [isWithheld_none (s := chargedTo j [] s) hw])).trans ?_)
  have hjob : failedJob g.onFailure (chargedJob j) (chargedTo j [] s) =
      if g.onFailure = .stop then chargedJob j else movedJob g.onFailure (chargedJob j) := by
    simp [failedJob, atRungAfter, movedJob, h.holder, hpass, h.active]
  have hstate :
      (if g.onFailure = .stop then chargedJob j else movedJob g.onFailure (chargedJob j)).state ≠ .voting := by
    split <;> exact fun hvoting => nomatch h.active.symm.trans hvoting
  rw [failedLost, hjob, jobGone, if_neg hstate, bestImage_eq]
  split <;> rfl

end

/-- The only job RECOVERED by CLEAN, its drive no one's (R46, R77, R165). -/
abbrev recoveredAlone (j : Job) (r : HeadRecord) (f : Field) (s : State) : State :=
  { recoveredBy .clean f j r s with seq := ⟨[], [], none, none⟩, drv.holder := .nobody }

/-- A field that passes ends the only job RECOVERED on a head that stays unworn (R67, R77, R165). -/
theorem recoveryFull_passes {f : Field} (h : ReadEnded j [] g s) (hsweep : s.sweep.state = .idle)
    (hclaim : s.map.claim = none) (hr : s.heads[j.addr.head]? = some r) (hpasses : passes s.straps.bits f = true)
    (hworn : r.worn = false) (hscore : r.threshold < r.score - min (j.readsSpent + 1) 15) :
    recoveryFull j.addr f s =
      if isWithheld s j.addr then withholdServed j.addr (recoveredAlone (chargedJob j) r f s)
      else recoveredAlone (chargedJob j) r f s := by
  have hdrive : LeavesDrive (chargedJob j) (chargedTo j [] s) := .inr ⟨h.holder, h.handsFree, by simp [h.active]⟩
  have hends := endRecovered_only (s := chargedTo j [] s) (j := chargedJob j) (m := .clean) (f := f) rfl hsweep hdrive
    hclaim hr hworn hscore
  have hgone : jobGone (chargedJob j) (recoveredBy .clean f (chargedJob j) r (chargedTo j [] s)) =
      recoveredAlone (chargedJob j) r f s := by
    simp only [jobGone, h.active]
    rfl
  rw [recoveryFull, if_pos hpasses, updateJob_charges h]
  refine hends.trans ?_
  rw [hgone]
  rfl

/-! ### The obligation -/

/-- Settles O53: what follows the charged read, by the rung's reads, its vote and failure action, and the budget. -/
theorem recoveryReadsEnd : Obligations.RecoveryReadsEnd := by
  intro dt rate field c j rest g next r e w s
  obtain ⟨work, idle, hbegin⟩ := begin_changes dt s
  rw [hbegin]
  intro b hc hparty hm hgate haddr hq hothers hactive hrung hh hstep htravel hepisode hpass hrest hr a f lad budget
    charged copies lowered reads ended lost score full short rungs i moved
  let holding (cp : List Field) : State := { lowered with seq.copies := cp }
  have hended (cp : List Field) : ReadEnded j rest g (holding cp) :=
    ⟨hq, hothers, hactive, hrung, hh, ⟨hstep, htravel, rfl, hepisode, hpass, hrest⟩⟩
  have hcopies : addCopy f s.seq.copies = copies := addCopy_eq f s.seq.copies
  have hworn : isWorn s a.head = r.worn := isWorn_of hr
  have hbudget : effectiveBudget (isWorn s a.head) lad.budget = budget := by rw [hworn]; rfl
  have fails {u : State} (hf : passes s.straps.bits f = false) (hu : settle (chargeRead a (holding copies)) = u) :
      full = .next u := by
    refine (exec_captureFull_recovery hbegin hc hparty hm hgate rfl field rate).trans (congrArg Host.Outcome.next ?_)
    rw [← hu, ← hcopies, haddr]
    exact congrArg settle (if_neg (ne_true_of_eq_false hf))
  have shorts {u : State} (hu : settle (chargeRead a (holding s.seq.copies)) = u) : short = .next u := by
    refine (exec_readClockTimeout_recovery hbegin hc hparty hm hgate rfl).trans (congrArg Host.Outcome.next ?_)
    rw [← hu, haddr]
  have hnewest : copies.getLast? = some f := hcopies ▸ addCopy_newest f s.seq.copies
  have noVote_full (h : g.voteAfter = false ∨ s.seq.copies = []) : g.voteAfter = false ∨ copies.length < 2 :=
    h.imp_right fun hnone => by rw [← hcopies, length_addCopy, hnone]; decide
  refine ⟨fun hw hleft hspent => ?reads, fun hw hlast hvote hone hf => ?votes,
    fun hw hlast hact hnext hcentre hrestore hpositive hspent hrecord => ?moves,
    fun honly hsweep hentry hbody hclaim => ⟨fun hw hleft hspent => ?spent, fun hw hlast hends => ?ends,
      fun hf hscore hunworn => ?passes⟩⟩
  case reads =>
    have readsOn (cp : List Field) := settle_chargeRead_reads (hended cp) hw hleft (hbudget ▸ hspent)
    exact ⟨fun hf => fails hf (readsOn copies), shorts (readsOn s.seq.copies)⟩
  case votes =>
    have htwo : 2 ≤ copies.length := by
      rw [← hcopies, length_addCopy]
      omega
    refine fails hf ((settle_chargeRead_votes (hended copies) hw hlast hvote htwo).trans ?_)
    rw [handVote_eq]
    rfl
  case moves =>
    have goesOn (cp : List Field) (hcp : g.voteAfter = false ∨ cp.length < 2) :=
      settle_chargeRead_moves (hended cp) hw hlast hcp hact hnext (hcentre.imp_left hworn.trans) hrestore hpositive
        (hbudget ▸ hspent) hrecord
    exact ⟨fun hcp hf => fails hf (goesOn copies (noVote_full hcp)), fun hcp => shorts (goesOn s.seq.copies hcp)⟩
  case spent =>
    subst honly
    have ends (cp : List Field) := settle_chargeRead_spent (hended cp) hw hsweep hclaim hr hleft (hbudget ▸ hspent)
    exact ⟨fun hf => fails hf ((ends copies).trans (by rw [hnewest]; rfl)), shorts (ends s.seq.copies)⟩
  case ends =>
    subst honly
    have ends (cp : List Field) (hcp : g.voteAfter = false ∨ cp.length < 2) :=
      settle_chargeRead_ends (hended cp) hw hsweep hclaim hr hlast hcp hends
    refine ⟨fun hcp hf => fails hf ((ends copies (noVote_full hcp)).trans ?_),
      fun hcp => shorts ((ends s.seq.copies hcp).trans ?_)⟩
    · rw [hnewest]
      split <;> rfl
    · split <;> rfl
  case passes =>
    subst honly
    intro recovered
    have hends := recoveryFull_passes (f := f) (s := lowered) (hended s.seq.copies) hsweep hclaim hr hf hunworn hscore
    have passed {u : State} (hu : settle (recoveryFull a f lowered) = u) : full = .next u := by
      refine (exec_captureFull_recovery hbegin hc hparty hm hgate rfl field rate).trans (congrArg Host.Outcome.next ?_)
      rw [← hu, haddr]
    refine ⟨fun hw => passed (settle_eq (hends.trans (if_neg ?_)) ?_),
      fun hw hsector => passed ((congrArg settle (hends.trans (if_pos ?_))).trans ?_)⟩
    · simp [isWithheld_none (s := lowered) hw]
    · exact nothingDue_of_nobody rfl hpass hw hrest (headMayRun_of_empty rfl) (sweepMayRun_of_idle hsweep)
    · exact (isWithheld_of (s := lowered) hw _).trans (decide_eq_true hsector)
    · exact settle_withholdServed (t := recovered) rfl ⟨hstep, htravel, rfl, hepisode, hpass, hrest⟩ hw rfl hsweep a

end Sys2Proof.Machine
end

section
/-!
PROOFS. The sweep's cursor (R153 to R155): the advance with its worn-head skips, the drive given up behind it, and the
arbiter's grant that takes the sweep on to the track it came to (R149).
-/

namespace Sys2Proof.Machine

variable {s : State} {w : Sweep} {t : Travel} {g : Geometry} {n : Nat}

/-! ### The advance -/

/-- The track after a track, in the sweep's range (R154). -/
abbrev trackAfter (w : Sweep) (x : Nat) : Nat := if x + 1 = w.limit then w.base else x + 1

/-- The track the cursor comes to with an advance and `n` skips (R154). -/
abbrev trackReached (w : Sweep) (n : Nat) : Nat := (trackAfter w)^[n] (trackAfter w w.next)

/-- Each of the `n` tracks after the present one is worn and not the stop (R154). -/
abbrev Passed (wornTrack : Nat → Bool) (w : Sweep) (n : Nat) : Prop :=
  ∀ i < n, trackReached w i ≠ w.stop ∧ wornTrack (trackReached w i) = true

/-- The sweep with its cursor on a track, some tracks skipped (R154). -/
abbrev cursorAt (x skips : Nat) (w : Sweep) : Sweep :=
  { w with
    next := x
    state := if x = w.stop then .done else w.state
    tracksSkipped := min (w.tracksSkipped + skips) 65535 }

theorem advanceCursor_eq (h : w.tracksSkipped ≤ 65535) : advanceCursor w = cursorAt (trackAfter w w.next) 0 w := by
  simp [advanceCursor, Nat.min_eq_left h]

theorem skipTracks_ends {wornTrack : Nat → Bool} (h : w.state = .done ∨ wornTrack w.next = false) (fuel : Nat) :
    skipTracks wornTrack fuel w = w := by
  cases fuel with
  | zero => rfl
  | succ fuel => exact if_neg fun ⟨hstate, hworn⟩ => h.elim hstate fun hfresh => by simp [hfresh] at hworn

/-- The skips come to the first track that is the stop or is not worn (R154). -/
theorem skipTracks_passes {wornTrack : Nat → Bool} {fuel : Nat} (hstate : w.state ≠ .done) (hn : n ≤ fuel)
    (hcount : w.tracksSkipped ≤ 65535) (hpassed : Passed wornTrack w n)
    (hends : trackReached w n = w.stop ∨ wornTrack (trackReached w n) = false) :
    skipTracks wornTrack fuel (advanceCursor w) = cursorAt (trackReached w n) n w := by
  induction n generalizing w fuel with
  | zero =>
    rw [advanceCursor_eq hcount]
    exact skipTracks_ends (hends.imp_left fun hstop => if_pos hstop) fuel
  | succ n ih =>
    obtain ⟨fuel, rfl⟩ : ∃ k, fuel = k + 1 := ⟨fuel - 1, by omega⟩
    obtain ⟨hgoes, hworn⟩ := hpassed 0 (by omega)
    let skipped : Sweep :=
      { w with next := trackAfter w w.next, tracksSkipped := min (w.tracksSkipped + 1) 65535 }
    have hnext : advanceCursor w = { w with next := trackAfter w w.next } := by
      simp only [advanceCursor]
      exact congrArg (fun st => ({ w with next := trackAfter w w.next, state := st } : Sweep)) (if_neg hgoes)
    have hstep : skipTracks wornTrack (fuel + 1) (advanceCursor w) =
        skipTracks wornTrack fuel (advanceCursor skipped) := by
      rw [hnext]
      exact if_pos ⟨hstate, hworn⟩
    have hreached (i : Nat) : trackReached skipped i = trackReached w (i + 1) := rfl
    have hall := ih (w := skipped) (fuel := fuel) hstate (by omega) (by simp [skipped])
      (fun i hi => hpassed (i + 1) (by omega)) hends
    have htotal : min (min (w.tracksSkipped + 1) 65535 + n) 65535 = min (w.tracksSkipped + (n + 1)) 65535 := by omega
    rw [hstep, hall, hreached]
    simp only [cursorAt, skipped, htotal]

/-! ### The track left -/

/-- The sweep as its track is left for another (R153, R154). -/
abbrev leftFor (x skips : Nat) (w : Sweep) : Sweep :=
  { resetTrack w with
    next := x
    state := if x = w.stop then .done else .waiting
    tracksSkipped := min (w.tracksSkipped + skips) 65535 }

/-- The sweep is in a track read, and its cursor comes over `n` worn tracks to the track it goes on to (R154). -/
structure Skips (n : Nat) (s : State) : Prop where
  sweeping : s.sweep.state = .sweeping
  room : n ≤ s.sweep.limit - s.sweep.base
  counted : s.sweep.tracksSkipped ≤ 65535
  passed : Passed (wornTrack s) s.sweep n

theorem leaveTrack_eq (h : Skips n s)
    (hends : trackReached s.sweep n = s.sweep.stop ∨ wornTrack s (trackReached s.sweep n) = false) :
    leaveTrack s = giveUp { s with sweep := leftFor (trackReached s.sweep n) n s.sweep } := by
  have hsweeping := h.sweeping
  have hskips : sweepSkips s (advanceCursor (resetTrack s.sweep)) =
      cursorAt (trackReached s.sweep n) n (resetTrack s.sweep) :=
    skipTracks_passes (w := resetTrack s.sweep) (by simp [resetTrack, hsweeping]) h.room h.counted h.passed hends
  simp only [leaveTrack]
  rw [hskips]
  by_cases hstop : trackReached s.sweep n = s.sweep.stop
  · simp [cursorAt, leftFor, resetTrack, hstop]
  · simp [leftFor, resetTrack, hstop, hsweeping]

/-! ### The way to a track -/

theorem headCount_eq (hg : s.svc.geometry = some g) : headCount s = g.heads := by simp only [headCount, hg]

theorem wornTrack_eq (hg : s.svc.geometry = some g) (x : Nat) :
    wornTrack s x = s.heads[x % g.heads]?.any HeadRecord.worn := by
  rw [wornTrack, isWorn_eq, headCount_eq hg]

/-- The positioning of the sweep to a track (R149). -/
abbrev toTrack (g : Geometry) (x : Nat) : Travel :=
  ⟨.sweep, x / g.heads, x % g.heads, .nominal, .centre, [.reach, .select, .margin], false, none⟩

theorem sweepTravel_eq (hg : s.svc.geometry = some g) : sweepTravel s = toTrack g s.sweep.next := by
  rw [sweepTravel, headCount_eq hg]

/-! ### The next grant -/

/-- A drive no one holds goes to the WAITING sweep where the head job may not run (R130, R149). -/
theorem acts_grantSweep (h : Quiescent s) (hh : s.drv.holder = .nobody) (hmay : deviceMayWork s = true)
    (hhead : headMayRun s = false) (hsweep : s.sweep.state = .waiting)
    (hworn : wornTrack s s.sweep.next = false) :
    Acts 1 s (if s.drv.lines.fault then startEpisode (sweepGranted s) else sweepGranted s) := by
  have hgranted : sweepMayRun s = true := by simp [sweepMayRun, hmay, hsweep]
  refine .one (x := .grantSweep) ?_ (grantSweep_goes (by simp [hh, Holder.isDevice]) hworn)
  rw [nextAct_of_quiescent h]
  simp [holderAct, hh, hhead, hgranted]

theorem quiescent_granted (h : Quiescent s) (hhead : headMayRun s = false) : Quiescent (sweepGranted s) := by
  obtain ⟨⟨hpass, hrest, hw, -⟩, hflight⟩ := h
  exact ⟨⟨hpass, hrest, hw, sweepYields_of_headMayRun hhead⟩, hflight⟩

/-- On the track's cylinder at CENTRE the sweep needs no step: it selects and waits for INDEX (R149, R150). -/
theorem settles_sweepAligns (h : Quiescent s) (hh : s.drv.holder = .sweep) (ht : s.drv.travel = some t)
    (hmoves : t.moves = [.reach, .select, .margin]) (hretry : t.retry = none) (hp : t.purpose = .sweep)
    (hcyl : s.drv.record.cyl = some t.cyl) (hoffset : s.drv.record.offset = some t.offset) : Settles 4 s
    { s with
      drv.record := ⟨some t.cyl, some t.head, some t.strobe, some t.offset⟩
      drv.travel := none
      sweep.pass := .awaitingIndex
      out := s.out ++ aligning t s } := by
  have hmay : MayMove s := ⟨h, .inr (.inl hh)⟩
  have hreach : Acts 1 s (leaving t [.select, .margin] s) := .move hmay ht (makeMove_there hmoves hcyl)
  have halign := acts_align (t := { t with moves := [.select, .margin] }) (s := leaving t [.select, .margin] s) hmay rfl
    rfl hoffset
  have harrives := acts_sweepArrives (s := aligned t s) (t := { t with moves := [] }) hmay rfl rfl hretry hp
  refine Settles.of_eq (.of_acts (hreach.trans (halign.trans harrives)) (nothingDue_awaitingIndex h hh rfl rfl)) ?_
  simp [hcyl]

/-- On the track's cylinder with another head the sweep needs HEAD alone (R95, R149). -/
theorem settles_sweepSelects {h : Nat} (hquiet : Quiescent s) (hh : s.drv.holder = .sweep) (ht : s.drv.travel = some t)
    (hmoves : t.moves = [.reach, .select, .margin]) (hretry : t.retry = none) (hp : t.purpose = .sweep)
    (hrecord : s.drv.record = ⟨some t.cyl, some h, some t.strobe, some t.offset⟩) (hother : h ≠ t.head) : Settles 4 s
    { s with
      drv.record.head := some t.head
      drv.travel := none
      sweep.pass := .awaitingIndex
      out := s.out ++ [.order (.head t.head)] } := by
  refine (settles_sweepAligns hquiet hh ht hmoves hretry hp (by rw [hrecord]) (by rw [hrecord])).of_eq ?_
  simp [aligning, hrecord, hother]

/-- The sweep goes to its track, or with FAULT raised waits for the episode's end: nothing but the drive port, the pass
and what is driven changes, and the sweep keeps the drive (R125, R149). -/
theorem settles_sweepGoes (h : Quiescent s) (hh : s.drv.holder = .sweep) (ht : s.drv.travel = some t)
    (hmoves : t.moves = [.reach, .select, .margin]) (hretry : t.retry = none) (hp : t.purpose = .sweep)
    (hstepped : t.stepped = false) : ∃ d p o,
    Settles 4 (if s.drv.lines.fault then startEpisode s else s) { s with drv := d, sweep.pass := p, out := o } ∧
      d.holder = .sweep := by
  obtain ⟨hfree, hstep, hcapture, hepisode⟩ := id h
  have hmay : MayMove s := ⟨h, .inr (.inl hh)⟩
  by_cases hfault : s.drv.lines.fault = true
  · rw [if_pos hfault, startEpisode_device (by simp [hcapture])]
    exact ⟨_, _, _, ⟨0, by omega, .nil _, nothingDue_of_inFlight hfree rfl⟩, hh⟩
  rw [if_neg hfault]
  by_cases hcyl : s.drv.record.cyl = some t.cyl
  · by_cases hoffset : s.drv.record.offset = some t.offset
    · exact ⟨_, _, _, settles_sweepAligns h hh ht hmoves hretry hp hcyl hoffset, hh⟩
    · have hreach : Acts 1 s (leaving t [.select, .margin] s) := .move hmay ht (makeMove_there hmoves hcyl)
      have hselect : Acts 1 (leaving t [.select, .margin] s) (selected t [.margin] s) :=
        .move hmay rfl (makeMove_select (t := { t with moves := [.select, .margin] }) rfl)
      have hmargin : Acts 1 (selected t [.margin] s) (settlingStep t [] (selected t [.margin] s)) :=
        .move hmay rfl (makeMove_settles (t := { t with moves := [.margin] }) rfl hoffset)
      exact ⟨_, _, _, ⟨3, by omega, hreach.trans (hselect.trans hmargin), nothingDue_of_stepping hfree rfl⟩, hh⟩
  · obtain ⟨n, hn, hseeks⟩ := settles_seeks hmay ht hmoves hstepped hcyl
    exact ⟨_, _, _, ⟨n, by omega, hseeks⟩, hh⟩

/-! ### The drive behind a track -/

/-- The sweep has nothing left in hand on the drive it holds, and no job and no withholding stands against it. -/
structure TrackOver (s : State) : Prop where
  free : HandsFree s
  holder : s.drv.holder = .sweep
  noWithhold : s.ctl.withhold = none
  noJob : s.seq.queue = []

/-- The drive given up with the sweep's descriptor as its track's end leaves it (R134, R153). -/
abbrev handedBack (w : Sweep) (s : State) : State := { s with drv.holder := .nobody, sweep := w }

theorem giveUp_handsBack (h : TrackOver s) : giveUp { s with sweep := w } = handedBack w s :=
  giveUp_device (s := { s with sweep := w }) h.free (by simp [h.holder, Holder.isDevice])

/-- A sweep that is not to wait leaves the drive free (R130, R153, R154). -/
theorem nothingDue_handedBack (h : TrackOver s) (hw : w.state ≠ .waiting) : NothingDue (handedBack w s) := by
  obtain ⟨⟨-, -, -, -, hpass, hrest⟩, -, hnone, hq⟩ := h
  exact nothingDue_of_nobody rfl hpass hnone hrest (headMayRun_of_empty hq) (by simp [sweepMayRun, hw])

theorem quiescent_handedBack (h : TrackOver s) (w : Sweep) : Quiescent (handedBack w s) := by
  obtain ⟨⟨hstep, -, hcapture, hepisode, hpass, hrest⟩, -, hnone, hq⟩ := h
  exact ⟨⟨hpass, hrest, noWithhold hnone, sweepYields_of_headMayRun (headMayRun_of_empty hq)⟩, hstep, hcapture,
    hepisode⟩

/-- The sweep granted the drive again, with the descriptor its track's end left (R149). -/
abbrev regranted (w : Sweep) (s : State) : State := sweepGranted (handedBack w s)

theorem quiescent_regranted (h : TrackOver s) (w : Sweep) : Quiescent (regranted w s) :=
  quiescent_granted (quiescent_handedBack h w) (headMayRun_of_empty h.noJob)

/-- A sweep that waits is granted the drive again at once, on a track that is not worn (R130, R149). -/
theorem settle_regrants {k : Nat} {u : State} (h : TrackOver s) (hmay : deviceMayWork s = true)
    (hw : w.state = .waiting) (hworn : wornTrack s w.next = false)
    (hgo : Settles k (if s.drv.lines.fault then startEpisode (regranted w s) else regranted w s) u)
    (hk : k ≤ 63 := by omega) : settle (giveUp { s with sweep := w }) = u := by
  rw [giveUp_handsBack h]
  exact (Acts.settles (acts_grantSweep (quiescent_handedBack h w) rfl hmay (headMayRun_of_empty h.noJob) hw hworn)
    hgo).settle

/-- The sweep DONE, the drive free (R153, R154). -/
abbrev sweepOver (skips : Nat) (s : State) : State :=
  handedBack { resetTrack s.sweep with
    next := s.sweep.stop
    state := .done
    tracksSkipped := min (s.sweep.tracksSkipped + skips) 65535 } s

/-- A track left with the stop as the next one ends the sweep (R153 to R155). -/
theorem leaveTrack_over (h : TrackOver s) (hskips : Skips n s) (hstop : trackReached s.sweep n = s.sweep.stop) :
    leaveTrack s = sweepOver n s ∧ NothingDue (sweepOver n s) := by
  refine ⟨?_, nothingDue_handedBack h (by simp)⟩
  rw [leaveTrack_eq hskips (.inl hstop), giveUp_handsBack h, leftFor, if_pos hstop, hstop]

/-- The sweep granted the drive for the track it went on to, with the way there to make (R149, R154). -/
abbrev wentOn (g : Geometry) (n : Nat) (s : State) : State :=
  { s with
    drv.idle := 0
    drv.travel := some (toTrack g (trackReached s.sweep n))
    sweep := { resetTrack s.sweep with
      next := trackReached s.sweep n
      tracksSkipped := min (s.sweep.tracksSkipped + n) 65535 } }

theorem regranted_leftFor (h : TrackOver s) (hskips : Skips n s) (hg : s.svc.geometry = some g) :
    regranted (leftFor (trackReached s.sweep n) n s.sweep) s = wentOn g n s := by
  simp only [regranted, sweepGranted]
  rw [sweepTravel_eq (s := handedBack (leftFor (trackReached s.sweep n) n s.sweep) s) hg]
  simp [h.holder, hskips.sweeping, resetTrack]

theorem quiescent_wentOn (h : TrackOver s) (hskips : Skips n s) (hg : s.svc.geometry = some g) :
    Quiescent (wentOn g n s) := regranted_leftFor h hskips hg ▸ quiescent_regranted h _

/-- A track left for another that is not worn: the sweep gives up the drive and is granted it at once (R149, R153 to
R155). -/
theorem settle_leavesFor {k : Nat} {u : State} (h : TrackOver s) (hskips : Skips n s) (hg : s.svc.geometry = some g)
    (hmay : deviceMayWork s = true) (hstop : trackReached s.sweep n ≠ s.sweep.stop)
    (hworn : wornTrack s (trackReached s.sweep n) = false)
    (hgo : Settles k (if s.drv.lines.fault then startEpisode (wentOn g n s) else wentOn g n s) u)
    (hk : k ≤ 63 := by omega) : settle (leaveTrack s) = u := by
  rw [leaveTrack_eq hskips (.inr hworn)]
  rw [← regranted_leftFor h hskips hg] at hgo
  exact settle_regrants h hmay (if_neg hstop) hworn hgo hk

/-- The sweep on the track it went on to after a track read that met no refusal (R153, R154). -/
abbrev movedOn (n : Nat) (s : State) : State :=
  { s with
    drv.idle := 0
    sweep.next := trackReached s.sweep n
    sweep.tracksSkipped := min (s.sweep.tracksSkipped + n) 65535
    sweep.marked := [] }

section
variable (h : TrackOver s) (hskips : Skips n s) (hg : s.svc.geometry = some g) (hdevice : deviceMayWork s = true)
  (hstop : trackReached s.sweep n ≠ s.sweep.stop) (hworn : wornTrack s (trackReached s.sweep n) = false)
  (hfault : s.drv.lines.fault = false)
include h hskips hg hdevice hstop hworn hfault

theorem settle_leavesFor_unfaulted {k : Nat} {u : State} (hgo : Settles k (wentOn g n s) u) (hk : k ≤ 63 := by omega) :
    settle (leaveTrack s) = u := by
  refine settle_leavesFor h hskips hg hdevice hstop hworn ?_ hk
  rwa [if_neg (ne_true_of_eq_false hfault)]

variable (hcause : s.sweep.cause = none) (hmet : s.sweep.refusalMet = false)
include hcause hmet

/-- The next track on the same cylinder needs HEAD alone, and its INDEX is awaited at once (R149, R150). -/
theorem settle_leavesFor_selects {x : Nat}
    (hrecord : s.drv.record = ⟨some (x / g.heads), some (x % g.heads), some .nominal, some .centre⟩)
    (hsame : x / g.heads = trackReached s.sweep n / g.heads) (hother : x % g.heads ≠ trackReached s.sweep n % g.heads) :
    settle (leaveTrack s) = { movedOn n s with
      sweep.pass := .awaitingIndex
      drv.record.head := some (trackReached s.sweep n % g.heads)
      out := s.out ++ [.order (.head (trackReached s.sweep n % g.heads))] } := by
  obtain ⟨-, htravel, -⟩ := h.free
  rw [hsame] at hrecord
  have hselects := settles_sweepSelects (s := wentOn g n s) (quiescent_wentOn h hskips hg) h.holder rfl rfl rfl rfl
    hrecord hother
  refine settle_leavesFor_unfaulted h hskips hg hdevice hstop hworn hfault (hselects.of_eq ?_)
  simp [hcause, hmet, htravel, resetTrack]

/-- The next track on another cylinder needs a POSITION step first (R121, R149). -/
theorem settle_leavesFor_seeks (haway : s.drv.record.cyl ≠ some (trackReached s.sweep n / g.heads))
    (herror : s.drv.lines.positionError = false) :
    settle (leaveTrack s) = { movedOn n s with
      sweep.pass := .reaching
      drv.record.cyl := none
      drv.lines.onCylinder := false
      drv.step := some ⟨.position (trackReached s.sweep n / g.heads), some .reach, s.clock,
        s.svc.params.positionTimeout * 1000, false⟩
      drv.travel := some { toTrack g (trackReached s.sweep n) with moves := [.select, .margin], stepped := true }
      out := s.out ++ [.order (.position (trackReached s.sweep n / g.heads))] } := by
  have hmay : MayMove (wentOn g n s) := ⟨quiescent_wentOn h hskips hg, .inr (.inl h.holder)⟩
  have hseeks := settles_seeks hmay rfl rfl rfl haway
  refine settle_leavesFor_unfaulted h hskips hg hdevice hstop hworn hfault (hseeks.of_eq ?_)
  simp [hcause, hmet, herror, resetTrack]

end

end Sys2Proof.Machine
end

section
/-!
PROOFS. A track's reading (R150 to R153): which sector is targeted next, how a capture ends, what the sweep asks of the
map and the queue, and how the track ends.
-/

namespace Sys2Proof.Machine

variable {s b : State} {g : Geometry} {a : Addr} {i k : Nat} {q : SweepPass}

/-! ### Lists searched with a stronger test -/

theorem find?_of_imp {α : Type} {p p' : α → Bool} {l : List α} {x : α} (himp : ∀ y, p' y = true → p y = true)
    (hx : p' x = p x) (h : l.find? p = some x) : l.find? p' = some x := by
  obtain ⟨hpx, before, after, rfl, hbefore⟩ := List.find?_eq_some_iff_append.1 h
  refine List.find?_eq_some_iff_append.2 ⟨hx.trans hpx, before, after, rfl, fun y hy => ?_⟩
  have hfails := hbefore y hy
  cases hp : p' y with
  | false => rfl
  | true => simp [himp y hp] at hfails

theorem dropWhile_of_imp {α : Type} {p p' : α → Bool} {l rest : List α} {x : α} (himp : ∀ y, p y = true → p' y = true)
    (hx : p' x = p x) (h : l.dropWhile p = x :: rest) : l.dropWhile p' = x :: rest := by
  induction l with
  | nil => cases h
  | cons y ys ih =>
    cases hp : p y with
    | true =>
      rw [List.dropWhile_cons_of_pos hp] at h
      rw [List.dropWhile_cons_of_pos (himp y hp), ih h]
    | false =>
      rw [List.dropWhile_cons_of_neg (by simp [hp])] at h
      obtain ⟨rfl, rfl⟩ := List.cons.inj h
      rw [List.dropWhile_cons_of_neg (by simp [hx, hp])]

/-! ### The next target -/

/-- The second pass's next target: the first of the sectors left that has no entry (R151). -/
def secondAmong (free : Nat → Bool) (left : List Nat) : Option (Nat × SweepPass) :=
  match left.dropWhile fun i => !free i with
  | [] => none
  | i :: rest => some (i, .second rest)

/-- The first pass's next sector: the lowest without an entry from where it stands (R150). -/
def firstAmong (free : Nat → Bool) (sectors i : Nat) : Option Nat :=
  (List.range sectors).find? fun x => decide (i ≤ x) && free x

/-- The next target of a track's passes among its sectors without an entry (R150, R151). -/
def targetAmong (free : Nat → Bool) (sectors : Nat) (pass : SweepPass) (marked : List Nat) : Option (Nat × SweepPass) :=
  match pass with
  | .first i =>
    match firstAmong free sectors i with
    | some x => some (x, .first (x + 1))
    | none => secondAmong free marked
  | .second left => secondAmong free left
  | _ => none

section
variable {free free' : Nat → Bool} {sectors : Nat} {marked left : List Nat} {pass : SweepPass}

theorem targetAmong_first (h : firstAmong free sectors i = some k) :
    targetAmong free sectors (.first i) marked = some (k, .first (k + 1)) := by
  simp only [targetAmong, h]

theorem targetAmong_firstOver (h : firstAmong free sectors i = none) :
    targetAmong free sectors (.first i) marked = secondAmong free marked := by
  simp only [targetAmong, h]

theorem secondAmong_iff : secondAmong free left = some (k, q) ↔
    ∃ rest, left.dropWhile (fun i => !free i) = k :: rest ∧ q = .second rest := by
  unfold secondAmong
  cases left.dropWhile fun i => !free i with
  | nil => simp
  | cons x rest => simp [eq_comm, and_comm]

/-- A target comes in the first or the second pass alone (R150, R151). -/
theorem pass_of_targetAmong (h : targetAmong free sectors pass marked = some (k, q)) :
    (∃ i, pass = .first i) ∨ ∃ left, pass = .second left := by
  cases pass with
  | first i => exact .inl ⟨i, rfl⟩
  | second left => exact .inr ⟨left, rfl⟩
  | reaching | awaitingIndex => simp [targetAmong] at h

/-- Other sectors mapped meanwhile leave the next target as it is (R150, R151). -/
theorem targetAmong_fewer (hfewer : ∀ x, free' x = true → free x = true) (hkeeps : free' k = free k)
    (h : targetAmong free sectors pass marked = some (k, q)) :
    targetAmong free' sectors pass marked = some (k, q) := by
  have himp (i : Nat) : ∀ x, (decide (i ≤ x) && free' x) = true → (decide (i ≤ x) && free x) = true := by
    simp only [Bool.and_eq_true]
    exact fun x hx => hx.imp_right (hfewer x)
  have hdrops : ∀ x, (!free x) = true → (!free' x) = true := by
    intro x hx
    cases hfree : free' x with
    | false => rfl
    | true => simp [hfewer x hfree] at hx
  have hsecond {left : List Nat} (h : secondAmong free left = some (k, q)) : secondAmong free' left = some (k, q) := by
    obtain ⟨rest, hdrop, rfl⟩ := secondAmong_iff.1 h
    exact secondAmong_iff.2 ⟨rest, dropWhile_of_imp hdrops (by rw [hkeeps]) hdrop, rfl⟩
  cases pass with
  | first i =>
    cases hfirst : firstAmong free sectors i with
    | some x =>
      obtain ⟨rfl, rfl⟩ : x = k ∧ SweepPass.first (x + 1) = q := by simpa [targetAmong_first hfirst] using h
      exact targetAmong_first (find?_of_imp (himp i) (by rw [hkeeps]) hfirst)
    | none =>
      have hnone : firstAmong free' sectors i = none :=
        List.find?_eq_none.2 fun x hx hfree => List.find?_eq_none.1 hfirst x hx (himp i x hfree)
      rw [targetAmong_firstOver hfirst] at h
      rw [targetAmong_firstOver hnone]
      exact hsecond h
  | second left => exact hsecond h
  | reaching | awaitingIndex => simp [targetAmong] at h

end

/-- A sector of the sweep's present track (R4). -/
abbrev onTrack (g : Geometry) (w : Sweep) (sec : Nat) : Addr := ⟨w.next / g.heads, w.next % g.heads, sec⟩

theorem sweepAddr_eq (hg : s.svc.geometry = some g) (sec : Nat) : sweepAddr s sec = onTrack g s.sweep sec := by
  rw [sweepAddr, headCount_eq hg]

/-- A sector of the present track has no entry (R150). -/
abbrev unmapped (g : Geometry) (s : State) (sec : Nat) : Bool := (entryOf s (onTrack g s.sweep sec)).isNone

theorem sectorMapped_eq (hg : s.svc.geometry = some g) : sectorMapped s = fun x => !unmapped g s x := by
  funext x
  rw [sectorMapped, sweepAddr_eq hg, unmapped, Option.not_isNone]

theorem secondTarget_eq (hg : s.svc.geometry = some g) (left : List Nat) :
    secondTarget s left = secondAmong (unmapped g s) left := by
  simp only [secondTarget, secondAmong, sectorMapped_eq hg] <;> rfl

theorem nextTarget_eq (hg : s.svc.geometry = some g) :
    nextTarget s = targetAmong (unmapped g s) g.sectors s.sweep.pass s.sweep.marked := by
  cases hp : s.sweep.pass with
  | first i =>
    have hfirst : (List.range g.sectors).find? (fun x => decide (i ≤ x) && !sectorMapped s x) =
        firstAmong (unmapped g s) g.sectors i := by
      simp only [sectorMapped_eq hg, Bool.not_not, firstAmong]
    simp only [nextTarget, hp, hg, hfirst, secondTarget_eq hg, targetAmong] <;> rfl
  | second left => simp only [nextTarget, hp, secondTarget_eq hg, targetAmong]
  | reaching | awaitingIndex => simp only [nextTarget, hp, targetAmong]

/-! ### The target issued -/

/-- The drive holds still for the sweep's next act: it reads a track, and nothing is in flight or to be reached. -/
structure TrackRead (s : State) : Prop where
  quiet : Quiescent s
  holder : s.drv.holder = .sweep
  sweeping : s.sweep.state = .sweeping
  noTravel : s.drv.travel = none

theorem sweepYields_of_background (h : ∀ j ∈ s.seq.queue, j.cls = .background) : sweepYields s = false := by
  cases hhead : headJob s with
  | none => simp [sweepYields, hhead]
  | some j => simp [sweepYields, hhead, h j (List.mem_of_head? hhead)]

/-- The next target issued, its capture in flight (R150). -/
abbrev targeting (g : Geometry) (k : Nat) (q : SweepPass) (s : State) : State :=
  { s with
    sweep.pass := q
    drv.capture := some ⟨.sweep, onTrack g s.sweep k, false, 0⟩
    out := s.out ++ [.order (.targetRead k)] }

theorem nextAct_trackRead (h : TrackRead s)
    (hp : (∃ i, s.sweep.pass = .first i) ∨ ∃ left, s.sweep.pass = .second left) : nextAct s = some .sweepTarget := by
  obtain ⟨hquiet, hh, hs, ht⟩ := h
  rw [nextAct_of_quiescent hquiet]
  rcases hp with ⟨i, hp⟩ | ⟨left, hp⟩ <;> simp [holderAct, hh, ht, hs, hp]

theorem settle_targets (h : TrackRead s) (hg : s.svc.geometry = some g) (hn : nextTarget s = some (k, q)) :
    settle s = targeting g k q s := by
  have hacts : Acts 1 s (targeting g k q s) := by
    refine .one (nextAct_trackRead h (pass_of_targetAmong ((nextTarget_eq hg).symm.trans hn))) ?_
    show runSweep s = _
    simp only [runSweep, hn, sweepAddr_eq hg]
    rfl
  obtain ⟨⟨hfree, -⟩, -⟩ := h
  exact settle_of_acts hacts (nothingDue_of_capturing hfree rfl) (by omega)

theorem settle_afterSweepCapture (h : TrackRead s) (hg : s.svc.geometry = some g) (hn : nextTarget s = some (k, q)) :
    settle (afterSweepCapture s) = targeting g k q s := by
  have hgoes : afterSweepCapture s = s := if_neg (by simp [hn])
  rw [hgoes, settle_targets h hg hn]

theorem afterSweepCapture_ends (hn : nextTarget s = none) : afterSweepCapture s = endTrack s := if_pos (by simp [hn])

/-! ### The capture's end -/

/-- A party's capture ended, READ GATE lowered with it (R12). -/
abbrev captureOver (b : State) : State :=
  { b with drv.capture := none, drv.readGate := false, out := [.readGate false] }

section
variable {c : Capture} {dt : Nat} (hbegin : begin dt s = b) (hc : b.drv.capture = some c) (hparty : c.party = .sweep)
  (hm : c.matched = true) (hgate : b.drv.readGate = true) (hout : b.out = [])
include hbegin hc hparty hm hgate hout

theorem exec_captureFull_sweep (field : List Nat) (rate : Nat) : exec (.captureFull dt field rate) s =
    .next (settle (sweepFull c.addr (takeField b.straps field) (captureOver b))) := by
  simp [exec, execCaptureFull, hbegin, hc, takingData, hm, hgate, captureEndsFull, hparty, lowerReadGate_eq, hout]

theorem exec_readClockTimeout_sweep : exec (.readClockTimeout dt) s =
    .next (settle (sweepShort c.addr (captureOver b))) := by
  simp [exec, execReadClockTimeout, hbegin, hc, takingData, hm, hgate, captureEndsShort, hparty, lowerReadGate_eq, hout]

end

/-- The sectors marked SHORT once a capture has ended so: the first pass marks its sector (R151). -/
def markedAfter (sec : Nat) (w : Sweep) : List Nat :=
  match w.pass with
  | .first _ => w.marked ++ [sec]
  | _ => w.marked

theorem sweepShort_eq (a : Addr) (s : State) :
    sweepShort a s = afterSweepCapture { s with sweep.marked := markedAfter a.sec s.sweep } := by
  cases hp : s.sweep.pass with
  | first i => simp only [sweepShort, markedAfter, hp]
  | second left | reaching | awaitingIndex =>
    simp only [sweepShort, markedAfter, hp]
    rw [← hp]

/-! ### The sweep's request -/

/-- With a cause standing the sweep asks for nothing, and a sector that has its entry or its claim needs nothing (R45,
R151, R152). -/
theorem sweepRequest_needless
    (h : s.sweep.cause.isSome = true ∨ (entryOf s a).isSome = true ∨ s.map.claim.map Claim.addr = some a) :
    sweepRequest a s = s := by
  by_cases hcause : s.sweep.cause.isSome = true
  · exact if_pos hcause
  · have hmet := h.resolve_left hcause
    simp only [sweepRequest, if_neg hcause, refusalOf, if_pos hmet, admitSector]

/-- A refused request is logged and becomes the block cause (R63, R152). -/
theorem sweepRequest_refused {cause : BlockCause} (hnone : s.sweep.cause = none) (h : refusalOf s a = some cause) :
    sweepRequest a s = { s with
      sweep.cause := some cause
      sweep.refusalMet := true
      log := loggedIn (.notAdmitted a) s s.log } := by
  simp only [sweepRequest, hnone, h, logIncident_eq]
  rfl

theorem refusalOf_fullMap (he : entryOf s a = none) (hc : s.map.claim.map Claim.addr ≠ some a)
    (hfull : freeEntries s = 0) : refusalOf s a = some .fullMap := by
  simp [refusalOf, he, hc, hfull]

theorem refusalOf_fullQueue (he : entryOf s a = none) (hc : s.map.claim.map Claim.addr ≠ some a)
    (hfree : 0 < freeEntries s) (hfull : 32 ≤ s.seq.queue.length) : refusalOf s a = some .fullQueue := by
  simp [refusalOf, he, hc, hfree.ne', Config.queueRoom, hfull]

/-- The sector PENDING for the sweep, its job at the queue's tail (R62, R151). -/
abbrev sweepAdmitted (a : Addr) (first : Nat) (s : State) : State :=
  { s with
    map.entries := insertEntry ⟨a, .sweep, .pending⟩ s.map.entries
    seq.queue := s.seq.queue ++ [⟨a, .background, chooseLadder s a, first, 0, 0, 0, .waiting, none, .sweep, false⟩]
    seq.workingRung :=
      if s.seq.queue = [] then (ladderOf s (chooseLadder s a)).rungs[first]? else s.seq.workingRung }

section
variable {first : Nat} (he : entryOf s a = none)
include he

theorem sweepRequest_admits (hnone : s.sweep.cause = none) (hc : s.map.claim.map Claim.addr ≠ some a)
    (hfree : 0 < freeEntries s) (hroom : s.seq.queue.length < 32) (hnew : jobOf s a = none)
    (hfirst : ((ladderOf s (chooseLadder s a)).rungs.findIdx fun r =>
      !isWorn s a.head || decide (r.offset = .centre)) = first)
    (hrung : first < (ladderOf s (chooseLadder s a)).rungs.length) :
    sweepRequest a s = sweepAdmitted a first s := by
  have hadmits : sweepRequest a s = enqueueJob (newJob s a .background .sweep) (addEntry ⟨a, .sweep, .pending⟩ s) := by
    simp [sweepRequest, hnone, refusalOf_met he hc hfree hroom, admitSector, he, hc]
  exact hadmits.trans (enqueueJob_background (s := addEntry ⟨a, .sweep, .pending⟩ s)
    (j := newJob s a .background .sweep) rfl rfl hfirst hrung rfl hnew)

/-- The admitted sector is targeted no more; another that was next still is (R150, R151). -/
theorem nextTarget_admitted (hg : s.svc.geometry = some g) (hother : k ≠ a.sec) (hn : nextTarget s = some (k, q)) :
    nextTarget (sweepAdmitted a first s) = some (k, q) := by
  have hentry (x : Nat) : unmapped g (sweepAdmitted a first s) x =
      (decide (onTrack g s.sweep x ≠ a) && unmapped g s x) := by
    have hfound : entryOf (sweepAdmitted a first s) (onTrack g s.sweep x) =
        if onTrack g s.sweep x = a then some ⟨a, .sweep, .pending⟩ else entryOf s (onTrack g s.sweep x) :=
      findEntry_insertEntry (e := ⟨a, .sweep, .pending⟩) he _
    show (entryOf (sweepAdmitted a first s) (onTrack g s.sweep x)).isNone = _
    rw [hfound]
    by_cases hx : onTrack g s.sweep x = a <;> simp [hx]
  rw [nextTarget_eq hg] at hn
  refine (nextTarget_eq (s := sweepAdmitted a first s) hg).trans (targetAmong_fewer (fun x hx => ?_) ?_ hn)
  · rw [hentry] at hx
    exact (Bool.and_eq_true_iff.1 hx).2
  · have hne : onTrack g s.sweep k ≠ a := fun h => hother (congrArg Addr.sec h)
    simp [hentry, hne]

end

/-! ### The track's end -/

theorem endTrack_blocked (h : s.sweep.cause.isSome = true) : endTrack s =
    giveUp { s with sweep := { s.sweep with state := .blocked, pass := .reaching, marked := [] } } := if_pos h

theorem endTrack_again (hcause : s.sweep.cause = none) (h : s.sweep.refusalMet = true) : endTrack s =
    giveUp { s with sweep := { s.sweep with state := .waiting, pass := .reaching, marked := [] } } := by
  simp [endTrack, hcause, h]

theorem endTrack_leaves (hcause : s.sweep.cause = none) (h : s.sweep.refusalMet = false) : endTrack s =
    leaveTrack { s with sweep.tracksRead := min (s.sweep.tracksRead + 1) 65535 } := by
  simp [endTrack, hcause, h, countUp, Config.maxCount]

/-- A failed retry of the sweep's positioning gives up its track (R140, R155). -/
theorem travelFails_leaves {m : Move} {tr : Travel} (hp : tr.purpose = .sweep) (hretry : tr.retry.isSome = true) :
    travelFails m tr s = leaveTrack { s with
      sweep.tracksSkipped := min (s.sweep.tracksSkipped + 1) 65535
      drv.travel := none } := by
  obtain ⟨again, hagain⟩ := Option.isSome_iff_exists.1 hretry
  simp [travelFails, hp, hagain, sweepPositionFailure, countUp, Config.maxCount]

end Sys2Proof.Machine
end

section
/-!
PROOFS. The sweep's commands (R148, R158, R159) and its track reads from INDEX to the track's end (R149 to R155).
-/

namespace Sys2Proof.Machine

variable {s b : State} {g : Geometry}

/-! ### The commands -/

/-- START SWEEP's ranges (R148). -/
abbrev SweepInRange (g : Geometry) (base limit first stop : Nat) : Prop :=
  base < limit ∧ limit ≤ g.cylinders * g.heads ∧ base ≤ first ∧ first < limit ∧ base ≤ stop ∧ stop < limit

section
variable {base limit first stop : Nat}

theorem startSweepReply_refuses (h : s.svc.mode = .passive ∨ s.svc.geometry = none) :
    startSweepReply base limit first stop s = (s, refuse .state) := by
  by_cases hm : s.svc.mode = .passive
  · exact if_pos (decide_eq_true hm)
  · simp [startSweepReply, isPassive, hm, h.resolve_left hm]

theorem startSweepReply_eq (hm : s.svc.mode ≠ .passive) (hg : s.svc.geometry = some g) :
    startSweepReply base limit first stop s =
      if SweepInRange g base limit first stop then
        (replaceSweep (startedSweep base limit first stop) s, sweepReply (startedSweep base limit first stop))
      else (s, refuse .range) := by
  simp only [startSweepReply, isPassive, hm, decide_false, hg]
  rfl

/-- With the drive in no device party's hands a new descriptor changes nothing else (R134, R148, R159). -/
theorem replaceSweep_eq (hd : s.drv.holder.isDevice = false) (w : Sweep) :
    replaceSweep w s = { s with sweep := w } := by
  have hkeeps : giveUp { s with sweep := w } = { s with sweep := w } := if_neg (by simp [hd])
  simp only [replaceSweep, hkeeps, ite_self]

theorem setSweepStopReply_idle (h : s.sweep.state = .idle) : setSweepStopReply stop s = (s, refuse .state) := if_pos h

theorem setSweepStopReply_outside (h : s.sweep.state ≠ .idle) (hout : stop < s.sweep.base ∨ s.sweep.limit ≤ stop) :
    setSweepStopReply stop s = (s, refuse .range) :=
  (if_neg h).trans (if_pos (by omega))

/-- The stop replaced; a DONE sweep waits again (R158). -/
abbrev stopMoved (stop : Nat) (w : Sweep) : Sweep :=
  { w with stop := stop, state := if w.state = .done then .waiting else w.state }

theorem setSweepStopReply_sets (h : s.sweep.state ≠ .idle) (hin : ¬(stop < s.sweep.base ∨ s.sweep.limit ≤ stop)) :
    setSweepStopReply stop s =
      ({ s with sweep := stopMoved stop s.sweep }, sweepReply (stopMoved stop s.sweep)) :=
  (if_neg h).trans (if_neg (by omega))

end

/-! ### INDEX and the track read -/

/-- INDEX begins the track read that awaits it (R150). -/
theorem driveIndex_begins {dt : Nat} (hbegin : begin dt s = b) (hc : b.drv.capture = none)
    (hturning : b.drv.condition = .turning) (hh : b.drv.holder = .sweep) (hs : b.sweep.state = .sweeping)
    (hp : b.sweep.pass = .awaitingIndex) (hepisode : b.drv.episode = none) :
    exec (.driveIndex dt) s =
      .next (settle { relayIndex (measureIndex b) with sweep.pass := .first 0 }) := by
  have hcapture : indexAtCapture (relayIndex (measureIndex b)) = relayIndex (measureIndex b) := by
    simp [indexAtCapture, relayIndex, emit, measureIndex, hc]
  have hbegins : indexAtSweep (relayIndex (measureIndex b)) =
      { relayIndex (measureIndex b) with sweep.pass := .first 0 } :=
    if_pos ⟨hh, hs, hp, hepisode⟩
  show Host.Outcome.next (settle (indexAtSweep (indexAtCapture (judgeIndex (measureIndex (begin dt s)))))) = _
  rw [hbegin, judgeIndex_turning (s := measureIndex b) hturning, hcapture, hbegins]

/-- A track read that finds nothing to target ends its track (R150, R153). -/
theorem acts_endsTrack (h : TrackRead s)
    (hp : (∃ i, s.sweep.pass = .first i) ∨ ∃ left, s.sweep.pass = .second left) (hn : nextTarget s = none) :
    Acts 1 s (endTrack s) := by
  refine .one (nextAct_trackRead h hp) ?_
  show runSweep s = _
  simp only [runSweep, hn]

/-- Settles O44: the three commands by their judgements, then the track read by what ends: INDEX, capture, retry. -/
theorem sweepIsCommanded : Obligations.SweepIsCommanded := by
  intro dt tag base0 base1 limit0 limit1 first0 first1 stop0 stop1 rate k n field q g c r st m tr s
  obtain ⟨work, idle, hbegin⟩ := begin_changes dt s
  rw [hbegin]
  intro b
  refine ⟨fun haccepts hdue hholder => ?commands, fun hh hsweeping hpass hepisode hw hrest hg hback => ?tracks⟩
  case commands =>
    intro pair base limit first stop reports start inRange
    have answers {c : Instr} {reply : State → State × Reply} {r : Reply} {t : State}
        (hexec : exec c s = .next (onFrame (fun s => settle (answer tag (reply s))) (begin dt s)))
        (hreply : reply (fieldEnds b) = (fieldEnds t, r)) (ht : NothingDue t) :
        exec c s = .next (answered tag r.result.code (padTo 5 r.header ++ r.body) t) :=
      exec_settles haccepts hexec (by rw [hbegin]; exact hreply) ht
    have still (w : Sweep) : NothingDue { b with sweep := w } :=
      nothingDue_of_eq hdue (nextAct_congr_controller hholder rfl rfl rfl rfl)
    have replaces (w : Sweep) : replaceSweep w (fieldEnds b) = fieldEnds { b with sweep := w } :=
      replaceSweep_eq (s := fieldEnds b) (by simp [b, hholder, Holder.isDevice]) w
    refine ⟨fun hrefused => ?_, fun hm hg => ?_, ?_, ?_⟩
    · exact answers (reply := startSweepReply base limit first stop) rfl
        (startSweepReply_refuses (s := fieldEnds b) hrefused) hdue
    · have hreply : startSweepReply base limit first stop (fieldEnds b) = _ :=
        startSweepReply_eq (s := fieldEnds b) hm hg
      by_cases hin : SweepInRange g base limit first stop
      · rw [if_pos (show inRange = true from decide_eq_true hin)]
        rw [if_pos hin, replaces] at hreply
        exact answers (reply := startSweepReply base limit first stop) rfl hreply (still _)
      · rw [if_neg (show ¬inRange = true from fun h => hin (of_decide_eq_true h))]
        rw [if_neg hin] at hreply
        exact answers (reply := startSweepReply base limit first stop) rfl hreply hdue
    · by_cases hidle : s.sweep.state = .idle
      · rw [if_pos hidle]
        exact answers (reply := setSweepStopReply stop) rfl (setSweepStopReply_idle (s := fieldEnds b) hidle) hdue
      rw [if_neg hidle]
      by_cases hout : stop < s.sweep.base ∨ s.sweep.limit ≤ stop
      · rw [if_pos hout]
        exact answers (reply := setSweepStopReply stop) rfl
          (setSweepStopReply_outside (s := fieldEnds b) hidle hout) hdue
      · rw [if_neg hout]
        exact answers (reply := setSweepStopReply stop) (t := { b with sweep := stopMoved stop s.sweep }) rfl
          (setSweepStopReply_sets (s := fieldEnds b) hidle hout) (still _)
    · exact answers (reply := abortSweepReply) (t := { b with sweep := idleSweep s.sweep }) rfl
        (congrArg (·, sweepReply (idleSweep s.sweep)) (replaces _)) (still _)
  case tracks =>
    intro w track free second firstFrom following succ worn passed nextTrack targets finished measured
    have hworn (x : Nat) : wornTrack s x = worn x := wornTrack_eq hg x
    have hpasses (h : passed) : Passed (wornTrack s) w n := fun i hi => ⟨(h i hi).1, (hworn _).trans (h i hi).2⟩
    have hcounted {x : Nat} (h : x ≤ 65535) : min (x + 0) 65535 = x := Nat.min_eq_left h
    refine ⟨fun hp hc hstep ht hturning => ?index, fun hc hparty hm hgate hstep ht hr hok => ?capture,
      fun hst hm ht hp hretry hc hq hmode hturning hresting hskipped hreads hroom hpassed => ?retry⟩
    case index =>
      let begun : State := { measured with sweep.pass := .first 0 }
      have hbegins : exec (.driveIndex dt) s = .next (settle begun) :=
        driveIndex_begins hbegin hc hturning hh hsweeping hp hepisode
      have hread : TrackRead begun :=
        ⟨⟨⟨hpass, hrest, noWithhold hw, sweepYields_of_background hback⟩, hstep, hc, hepisode⟩, hh, hsweeping, ht⟩
      have hnext : nextTarget begun = targetAmong free g.sectors (.first 0) w.marked := nextTarget_eq (s := begun) hg
      refine ⟨fun hf => ?_, fun hf hmarked hcause hmet hq hreads hskipped hstop => ?_⟩
      · rw [hbegins, settle_targets hread hg (hnext.trans (targetAmong_first hf))]
      · have hnone : nextTarget begun = none := by
          rw [hnext, targetAmong_firstOver hf, hmarked]
          rfl
        let left : State := { begun with sweep.tracksRead := min (w.tracksRead + 1) 65535 }
        obtain ⟨hleaves, hdue⟩ := leaveTrack_over (s := left) (n := 0)
          ⟨⟨hstep, ht, hc, hepisode, hpass, hrest⟩, hh, hw, hq⟩
          ⟨hsweeping, Nat.zero_le _, hskipped, fun _ h => absurd h (Nat.not_lt_zero _)⟩ hstop
        have hends := (endTrack_leaves (s := begun) hcause hmet).trans hleaves
        rw [hbegins, settle_of_acts (hends ▸ acts_endsTrack hread (.inl ⟨0, rfl⟩) hnone) hdue (by omega)]
        rfl
    case capture =>
      intro a f lowered credited failing slot refused full short marked
      have reading {t : State} (hdrv : t.drv = lowered.drv) (hsvc : t.svc = s.svc) (hctl : t.ctl = s.ctl)
          (hs : t.sweep.state = .sweeping) (hback : ∀ j ∈ t.seq.queue, j.cls = .background) : TrackRead t := by
        have hrest : restDue t = false := by
          simp only [restDue, workDuration, hdrv, hsvc]
          exact hrest
        refine ⟨⟨⟨?_, hrest, noWithhold (hctl ▸ hw), sweepYields_of_background hback⟩, ?_⟩, ?_, hs, ?_⟩
        all_goals rw [hdrv]
        exacts [hpass, ⟨hstep, rfl, hepisode⟩, hh, ht]
      refine ⟨fun hnext => ⟨fun hf => ?passes, fun hf => ?fails⟩, fun hnext => ?marks,
        fun hnone hq hmode hturning hresting hfault hreads hskipped => ?ends⟩
      case passes =>
        have hcredits : creditCleanLook a.head lowered = credited := creditCleanLook_eq (s := lowered) hr hok
        have hn : nextTarget credited = some (k, q) := (nextTarget_eq (s := credited) hg).trans hnext
        refine (exec_captureFull_sweep hbegin hc hparty hm hgate rfl field rate).trans (congrArg Host.Outcome.next ?_)
        rw [sweepFull, if_pos hf]
        exact (congrArg (fun t => settle (afterSweepCapture t)) hcredits).trans
          (settle_afterSweepCapture (reading rfl rfl rfl hsweeping hback) hg hn)
      case fails =>
        have requests {t : State} (ht : sweepRequest a failing = t) (hread : TrackRead t) (hg : t.svc.geometry = some g)
            (hn : nextTarget t = some (k, q)) : full (targeting g k q t) := by
          refine (exec_captureFull_sweep hbegin hc hparty hm hgate rfl field rate).trans (congrArg Host.Outcome.next ?_)
          rw [sweepFull, if_neg (ne_true_of_eq_false hf)]
          exact (congrArg (fun t => settle (afterSweepCapture t)) ht).trans (settle_afterSweepCapture hread hg hn)
        have hn : nextTarget failing = some (k, q) := (nextTarget_eq (s := failing) hg).trans hnext
        refine ⟨fun hneedless => ?_, fun hcause he hclaim => ⟨fun hfull => ?_, fun hfree hfull => ?_,
          fun hfree hroom hnew hother => ?_⟩⟩
        · exact requests (sweepRequest_needless (s := failing) hneedless) (reading rfl rfl rfl hsweeping hback) hg hn
        · exact requests (t := refused .fullMap)
            (sweepRequest_refused (s := failing) hcause (refusalOf_fullMap (s := failing) he hclaim hfull))
            (reading rfl rfl rfl hsweeping hback) hg ((nextTarget_eq (s := refused .fullMap) hg).trans hnext)
        · exact requests (t := refused .fullQueue)
            (sweepRequest_refused (s := failing) hcause (refusalOf_fullQueue (s := failing) he hclaim hfree hfull))
            (reading rfl rfl rfl hsweeping hback) hg ((nextTarget_eq (s := refused .fullQueue) hg).trans hnext)
        · intro rungs first hrung
          refine requests (t := sweepAdmitted a first failing)
            (sweepRequest_admits (s := failing) he hcause hclaim hfree hroom hnew rfl hrung)
            (reading rfl rfl rfl hsweeping fun j hj => ?_) hg (nextTarget_admitted (s := failing) he hg hother hn)
          rcases List.mem_append.1 hj with hj | hj
          · exact hback j hj
          · rw [List.mem_singleton.1 hj]
      all_goals
        let ended : State := { lowered with sweep.marked := marked }
        have shorts {u : State} (hu : settle (afterSweepCapture ended) = u) : short u := by
          refine (exec_readClockTimeout_sweep hbegin hc hparty hm hgate rfl).trans (congrArg Host.Outcome.next ?_)
          rw [sweepShort_eq]
          exact hu
        have hn : nextTarget ended = following marked := nextTarget_eq (s := ended) hg
      case marks =>
        exact shorts (settle_afterSweepCapture (reading rfl rfl rfl hsweeping hback) hg (hn.trans hnext))
      case ends =>
        intro lands
        have hover : TrackOver ended := ⟨⟨hstep, ht, rfl, hepisode, hpass, hrest⟩, hh, hw, hq⟩
        have hmay : deviceMayWork ended = true := deviceMayWork_of (s := s) hmode hturning hresting
        have ends {u v : State} (hends : endTrack ended = u) (hu : settle u = v) : short v :=
          shorts (by rw [afterSweepCapture_ends (hn.trans hnone), hends, hu])
        have unfaulted {l : Nat} {u v : State} (h : Settles l u v) :
            Settles l (if ended.drv.lines.fault then startEpisode u else u) v := by
          rwa [if_neg (ne_true_of_eq_false hfault)]
        refine ⟨fun hcause => ?blocked, fun (hcause : s.sweep.cause = none) hmet hfresh hlands => ?again,
          fun (hcause : s.sweep.cause = none) (hmet : s.sweep.refusalMet = false) hroom hpassed =>
            ⟨fun hstop => ?stops, fun hstop hfresh hlands => ?goesOn⟩⟩
        case blocked =>
          let blocked : Sweep := { ended.sweep with state := .blocked, pass := .reaching, marked := [] }
          exact ends (endTrack_blocked (s := ended) hcause) (settle_eq (t := handedBack blocked ended)
            (giveUp_handsBack hover) (nothingDue_handedBack hover (by simp [blocked])))
        case again =>
          let waiting : Sweep := { ended.sweep with state := .waiting, pass := .reaching, marked := [] }
          have hplace := settles_sweepInPlace (t := toTrack g w.next) (quiescent_regranted hover waiting) rfl
            (congrArg some (sweepTravel_eq (s := handedBack waiting ended) hg)) rfl rfl rfl hlands
          refine ends (endTrack_again (s := ended) hcause hmet) (settle_regrants (w := waiting) hover hmay rfl
            ((hworn _).trans hfresh) (unfaulted (hplace.of_eq ?_)))
          simp [waiting, ended, lowered, b, hh, ht, hsweeping, hcause, resetTrack]
        all_goals
          let left : State := { ended with sweep.tracksRead := min (w.tracksRead + 1) 65535 }
          have hleaves : endTrack ended = leaveTrack left := endTrack_leaves (s := ended) hcause hmet
          have hover : TrackOver left := ⟨hover.free, hh, hw, hq⟩
          have hskips : Skips n left := ⟨hsweeping, hroom, hskipped, hpasses hpassed⟩
        case stops =>
          obtain ⟨hstops, hdue⟩ := leaveTrack_over (s := left) hover hskips hstop
          exact ends hleaves (settle_eq hstops hdue)
        case goesOn =>
          intro moved head cyl
          refine ⟨fun hsame hother => ends hleaves ?_, fun haway herror => ends hleaves ?_⟩
          all_goals have hnew : wornTrack left nextTrack = false := (hworn _).trans hfresh
          · exact settle_leavesFor_selects hover hskips hg hmay hstop hnew hfault hcause hmet hlands hsame hother
          · refine settle_leavesFor_seeks hover hskips hg hmay hstop hnew hfault hcause hmet ?_ herror
            rw [show left.drv.record = _ from hlands]
            simpa using haway
    case retry =>
      let failed : State := { b with
        drv.lines.positionError := true
        drv.step := none
        drv.travel := none
        sweep.tracksSkipped := min (w.tracksSkipped + 1) 65535 }
      have fails {u : State} (hu : settle (leaveTrack failed) = u) : exec (.positioningStepFails dt) s = .next u := by
        rw [stepFails_exec hbegin, stepFails_travel (s := { b with drv.lines.positionError := true }) hst hm hpass ht,
          travelFails_leaves hp hretry]
        exact congrArg Host.Outcome.next hu
      have hover : TrackOver failed := ⟨⟨rfl, rfl, hc, hepisode, hpass, hrest⟩, hh, hw, hq⟩
      have hskips : Skips n failed := ⟨hsweeping, hroom, Nat.min_le_right _ _, hpasses hpassed⟩
      refine ⟨fun hstop => ?_, fun hstop hfresh => ?_⟩
      · obtain ⟨hleaves, hdue⟩ := leaveTrack_over hover hskips hstop
        refine fails ((settle_eq hleaves hdue).trans ?_)
        have htotal : min (min (w.tracksSkipped + 1) 65535 + n) 65535 = min (w.tracksSkipped + (n + 1)) 65535 := by
          omega
        simp only [sweepOver, handedBack, failed, finished, htotal, hcounted hreads]
        rfl
      · obtain ⟨d, p, o, hgoes, hd⟩ := settles_sweepGoes (s := wentOn g n failed)
          (quiescent_wentOn hover hskips hg) hh rfl rfl rfl rfl rfl
        refine ⟨_, fails (settle_leavesFor hover hskips hg (deviceMayWork_of (s := s) hmode hturning hresting) hstop
          ((hworn _).trans hfresh) hgoes), hd, hsweeping, rfl, rfl, ?_, rfl, rfl, rfl, rfl, rfl, rfl⟩
        show min (min (w.tracksSkipped + 1) 65535 + n) 65535 = _
        omega

end Sys2Proof.Machine
end

section
/-!
PROOFS. What leaves the head records and the incident log as they are (R162, R172): every operation but the notices to the
health monitor, the incidents, and what sets either off. One lemma for each, in the order of the definitions.
-/

namespace Sys2Proof.Machine

/-- The head records and the incident log stay as they are (R162, R172). -/
@[simp] abbrev KeepsRecords (s t : State) : Prop := t.heads = s.heads ∧ t.log = s.log

/-- The records of a state chosen by a condition are those of the one chosen. -/
@[simp] theorem records_ite (p : Prop) [Decidable p] (s t : State) :
    ((if p then s else t).heads = if p then s.heads else t.heads) ∧
      ((if p then s else t).log = if p then s.log else t.log) := by
  split <;> simp

/-! ### Time and the drive port -/

@[simp] theorem beginAt_keepsRecords {t} (s : State) : KeepsRecords s (beginAt t s) := by simp [beginAt_eq_begin]

@[simp] theorem advance_keepsRecords {dt} (s : State) : KeepsRecords s (advance dt s) := by simp [advance]

@[simp] theorem issueOrder_keepsRecords {o} (s : State) : KeepsRecords s (issueOrder o s) := by
  unfold issueOrder
  split <;> simp

@[simp] theorem issueStep_keepsRecords {o m} (s : State) : KeepsRecords s (issueStep o m s) := by simp [issueStep]

@[simp] theorem completeStep_keepsRecords {st} (s : State) : KeepsRecords s (completeStep st s) := by
  unfold completeStep
  split <;> simp

@[simp] theorem lowerReadGate_keepsRecords (s : State) : KeepsRecords s (lowerReadGate s) := by simp [lowerReadGate]

@[simp] theorem lowerWriteGate_keepsRecords (s : State) : KeepsRecords s (lowerWriteGate s) := by simp [lowerWriteGate]

@[simp] theorem setHolder_keepsRecords {h} (s : State) : KeepsRecords s (setHolder h s) := by simp [setHolder]

@[simp] theorem abandonCapture_keepsRecords (s : State) : KeepsRecords s (abandonCapture s) := by
  unfold abandonCapture
  split <;> simp

@[simp] theorem dropWork_keepsRecords (s : State) : KeepsRecords s (dropWork s) := by simp [dropWork]

@[simp] theorem giveUp_keepsRecords (s : State) : KeepsRecords s (giveUp s) := by simp [giveUp]

@[simp] theorem interruptSweep_keepsRecords (s : State) : KeepsRecords s (interruptSweep s) := by simp [interruptSweep]

@[simp] theorem takeDrive_keepsRecords (s : State) : KeepsRecords s (takeDrive s) := by simp [takeDrive]

@[simp] theorem endUse_keepsRecords (s : State) : KeepsRecords s (endUse s) := by simp [endUse]

@[simp] theorem noticeSweep_keepsRecords (s : State) : KeepsRecords s (noticeSweep s) := by
  unfold noticeSweep
  split <;> simp

/-! ### The map -/

@[simp] theorem settleInNewSlot_keepsRecords {a k f n w} (s : State) :
    KeepsRecords s (settleInNewSlot a k f n w s) := by
  obtain ⟨e, st, c, h⟩ := settleInNewSlot_changes a k f n w s
  simp [h]

@[simp] theorem settleInOwnSlot_keepsRecords {a k f n w i} (s : State) :
    KeepsRecords s (settleInOwnSlot a k f n w i s) := by simp [settleInOwnSlot]

@[simp] theorem dropEntry_keepsRecords {a} (s : State) : KeepsRecords s (dropEntry a s) := by
  unfold dropEntry
  split <;> simp

@[simp] theorem mapRecovered_keepsRecords {a m f n w} (s : State) : KeepsRecords s (mapRecovered a m f n w s) := by
  simp [mapRecovered]

@[simp] theorem mapLost_keepsRecords {a f n w} (s : State) : KeepsRecords s (mapLost a f n w s) := by simp [mapLost]

/-! ### Votes and the queue -/

@[simp] theorem handVote_keepsRecords {a i} (s : State) : KeepsRecords s (handVote a i s) := by
  unfold handVote
  split <;> simp

@[simp] theorem nextVote_keepsRecords (s : State) : KeepsRecords s (nextVote s) := by
  unfold nextVote
  split <;> simp

@[simp] theorem reorder_keepsRecords {f} (s : State) : KeepsRecords s (reorder f s) := by
  obtain ⟨q, e, d, o, h⟩ := reorder_changes f s
  simp [h]

@[simp] theorem removeJob_keepsRecords {a} (s : State) : KeepsRecords s (removeJob a s) := by simp [removeJob]

@[simp] theorem cancelJob_keepsRecords {a} (s : State) : KeepsRecords s (cancelJob a s) := by
  unfold cancelJob
  split <;> simp

/-! ### Operations and withholding -/

@[simp] theorem beginServed_keepsRecords {k a} (s : State) : KeepsRecords s (beginServed k a s) := by simp [beginServed]

@[simp] theorem beginLive_keepsRecords {k a} (s : State) : KeepsRecords s (beginLive k a s) := by simp [beginLive]

@[simp] theorem dropReseat_keepsRecords (s : State) : KeepsRecords s (dropReseat s) := by
  unfold dropReseat
  split <;> simp

@[simp] theorem closeWithhold_keepsRecords {k} (s : State) : KeepsRecords s (closeWithhold k s) := by
  unfold closeWithhold
  split <;> simp

@[simp] theorem withholdServed_keepsRecords {a} (s : State) : KeepsRecords s (withholdServed a s) := by
  simp [withholdServed]

@[simp] theorem withholdLive_keepsRecords {k a} (s : State) : KeepsRecords s (withholdLive k a s) := by
  simp [withholdLive]

@[simp] theorem demoteJob_keepsRecords {a} (s : State) : KeepsRecords s (demoteJob a s) := by
  unfold demoteJob
  dsimp only
  split <;> simp

@[simp] theorem endWithholdDemoting_keepsRecords {k} (s : State) : KeepsRecords s (endWithholdDemoting k s) := by
  unfold endWithholdDemoting
  split <;> simp

/-! ### Rungs, episodes and the sweep -/

@[simp] theorem goToRung_keepsRecords (s : State) : KeepsRecords s (goToRung s) := by
  unfold goToRung
  split <;> simp

@[simp] theorem startEpisode_keepsRecords (s : State) : KeepsRecords s (startEpisode s) := by simp [startEpisode]

@[simp] theorem grantSweep_keepsRecords (s : State) : KeepsRecords s (grantSweep s) := by simp [grantSweep]

@[simp] theorem leaveTrack_keepsRecords (s : State) : KeepsRecords s (leaveTrack s) := by simp [leaveTrack]

@[simp] theorem endTrack_keepsRecords (s : State) : KeepsRecords s (endTrack s) := by simp [endTrack]

@[simp] theorem sweepPositionFailure_keepsRecords (s : State) : KeepsRecords s (sweepPositionFailure s) := by
  simp [sweepPositionFailure]

@[simp] theorem runSweep_keepsRecords (s : State) : KeepsRecords s (runSweep s) := by
  unfold runSweep
  split <;> simp

@[simp] theorem afterSweepCapture_keepsRecords (s : State) : KeepsRecords s (afterSweepCapture s) := by
  simp [afterSweepCapture]

/-! ### Positioning and the acts of settling -/

@[simp] theorem travelStep_keepsRecords {o m t} (s : State) : KeepsRecords s (travelStep o m t s) := by simp [travelStep]

@[simp] theorem issueTarget_keepsRecords (s : State) : KeepsRecords s (issueTarget s) := by
  unfold issueTarget
  split
  · simp
  · split <;> simp

@[simp] theorem beginRest_keepsRecords (s : State) : KeepsRecords s (beginRest s) := by simp [beginRest]

@[simp] theorem relayOrder_keepsRecords (s : State) : KeepsRecords s (relayOrder s) := by
  unfold relayOrder
  split <;> simp

@[simp] theorem passDrive_keepsRecords (s : State) : KeepsRecords s (passDrive s) := by
  unfold passDrive
  split <;> simp

/-! ### The LOST judgement and the drive's events -/

@[simp] theorem lostClear_keepsRecords (s : State) : KeepsRecords s (lostClear s) := by simp [lostClear]

@[simp] theorem headLosesDrive_keepsRecords (s : State) : KeepsRecords s (headLosesDrive s) := by
  unfold headLosesDrive
  dsimp only
  split <;> simp

@[simp] theorem startGenerator_keepsRecords (s : State) : KeepsRecords s (startGenerator s) := by simp [startGenerator]

@[simp] theorem operationLosesDrive_keepsRecords (s : State) : KeepsRecords s (operationLosesDrive s) := by
  unfold operationLosesDrive
  split
  · simp
  · split <;> simp

@[simp] theorem passiveGoesOn_keepsRecords (s : State) : KeepsRecords s (passiveGoesOn s) := by simp [passiveGoesOn]

@[simp] theorem relayedEnds_keepsRecords {ok} (s : State) : KeepsRecords s (relayedEnds ok s) := by simp [relayedEnds]

@[simp] theorem stepCompletes_keepsRecords (s : State) : KeepsRecords s (stepCompletes s) := by
  unfold stepCompletes
  split <;> simp

@[simp] theorem sweepShort_keepsRecords {a} (s : State) : KeepsRecords s (sweepShort a s) := by
  unfold sweepShort
  split <;> simp

@[simp] theorem relayMatch_keepsRecords (s : State) : KeepsRecords s (relayMatch s) := by
  unfold relayMatch
  split <;> simp

@[simp] theorem judgeIndex_keepsRecords (s : State) : KeepsRecords s (judgeIndex s) := by
  unfold judgeIndex
  split <;> simp

@[simp] theorem indexAtSweep_keepsRecords (s : State) : KeepsRecords s (indexAtSweep s) := by simp [indexAtSweep]

@[simp] theorem faultAtHolder_keepsRecords (s : State) : KeepsRecords s (faultAtHolder s) := by simp [faultAtHolder]

/-! ### The controller's orders -/

@[simp] theorem lowerLiveReadGate_keepsRecords (s : State) : KeepsRecords s (lowerLiveReadGate s) := by
  unfold lowerLiveReadGate
  split <;> simp

@[simp] theorem stopSending_keepsRecords {o} (s : State) : KeepsRecords s (stopSending o s) := by simp [stopSending]

@[simp] theorem endOperation_keepsRecords (s : State) : KeepsRecords s (endOperation s) := by
  unfold endOperation
  split
  · simp
  · split <;> simp

@[simp] theorem endWithholdByOrder_keepsRecords (s : State) : KeepsRecords s (endWithholdByOrder s) := by
  unfold endWithholdByOrder
  split <;> simp

@[simp] theorem updateView_keepsRecords {o} (s : State) : KeepsRecords s (updateView o s) := by
  unfold updateView
  split <;> simp

@[simp] theorem takeOrder_keepsRecords {o} (s : State) : KeepsRecords s (takeOrder o s) := by
  simp [takeOrder, recordOrder]

@[simp] theorem relay_keepsRecords {o} (s : State) : KeepsRecords s (relay o s) := by simp [relay]

@[simp] theorem positionView_keepsRecords (s : State) : KeepsRecords s (positionView s) := by
  unfold positionView
  cases h : s.svc.mode <;> simp [h]

@[simp] theorem beginWithhold_keepsRecords {a} (s : State) : KeepsRecords s (beginWithhold a s) := by
  simp [beginWithhold]

@[simp] theorem decideRead_keepsRecords {a} (s : State) : KeepsRecords s (decideRead a s) := by
  unfold decideRead
  split
  · simp
  · split <;> simp

/-- What an order does once it is taken (R19 to R28). -/
@[simp] theorem actOrder_keepsRecords {old o} (s : State) : KeepsRecords s (actOrder old o s) := by
  cases o
  case position | ret => simp [actOrder, actPosition]
  case head => simp [actOrder, actHead]
  case margin => cases h : s.svc.mode <;> simp [actOrder, actMargin, h]
  case targetRead => cases h : s.svc.mode <;> simp [actOrder, actTargetRead, h]
  case targetWrite => cases h : s.svc.mode <;> simp [actOrder, actTargetWrite, h]
  case clear => simp [actOrder, actClear]

/-! ### Written fields, gates and timers -/

@[simp] theorem overlay_keepsRecords {a f} (s : State) : KeepsRecords s (overlay a f s) := by
  unfold overlay
  split
  · simp
  · split <;> simp

@[simp] theorem passBits_keepsRecords {bits} (s : State) : KeepsRecords s (passBits bits s) := by simp [passBits]

@[simp] theorem matched_keepsRecords {o} (s : State) : KeepsRecords s (matched o s) := by simp [matched]

@[simp] theorem quietPasses_keepsRecords (s : State) : KeepsRecords s (quietPasses s) := by simp [quietPasses]

@[simp] theorem limitPasses_keepsRecords (s : State) : KeepsRecords s (limitPasses s) := by simp [limitPasses]

/-! ### The service commands -/

/-- The commands that load the geometry, the parameters, the zones and the ladders (R87 to R89, R93, R190, R191). -/
@[simp] theorem tableReplies_keepRecords (s : State) :
    (∀ c h n, KeepsRecords s (setGeometryReply c h n s).1) ∧
    (∀ m a b c d e, KeepsRecords s (setParametersReply m a b c d e s).1) ∧
    (∀ k h lo hi l, KeepsRecords s (loadZoneReply k h lo hi l s).1) ∧
    (∀ k, KeepsRecords s (clearZoneReply k s).1) ∧
    (∀ k m l b, KeepsRecords s (setLadderHeaderReply k m l b s).1) ∧
    (∀ k i r0 r1, KeepsRecords s (loadRungReply k i r0 r1 s).1) ∧
    ∀ k, KeepsRecords s (clearLadderReply k s).1 := by
  unfold setGeometryReply setParametersReply limiterActs loadZoneReply clearZoneReply setLadderHeaderReply loadRungReply
    clearLadderReply
  refine ⟨?_, ?_, ?_, ?_, ?_, ?_, ?_⟩
  all_goals
    intros
    dsimp only
    repeat' split
    all_goals exact ⟨rfl, rfl⟩

@[simp] theorem releaseEntryReply_keepsRecords {a0 a1} (s : State) : KeepsRecords s (releaseEntryReply a0 a1 s).1 := by
  refine addressed_keeps (P := KeepsRecords s) ⟨rfl, rfl⟩ fun a => ?_
  cases entryOf s a <;> simp

@[simp] theorem importImage_keepsRecords {a f} (s : State) : KeepsRecords s (importImage a f s).1 := by
  unfold importImage
  repeat' split
  all_goals simp [imported]

@[simp] theorem importPageReply_keepsRecords {a0 a1 p us} (s : State) :
    KeepsRecords s (importPageReply a0 a1 p us s).1 := by
  unfold importPageReply laterPage
  dsimp only
  repeat' split
  all_goals simp

@[simp] theorem replaceSweep_keepsRecords {w} (s : State) : KeepsRecords s (replaceSweep w s) := by simp [replaceSweep]

/-- The commands of the sweep (R148, R158, R159). -/
@[simp] theorem sweepReplies_keepRecords (s : State) :
    (∀ b l f p, KeepsRecords s (startSweepReply b l f p s).1) ∧
    (∀ p, KeepsRecords s (setSweepStopReply p s).1) ∧ KeepsRecords s (abortSweepReply s).1 := by
  unfold startSweepReply setSweepStopReply abortSweepReply
  refine ⟨fun _ _ _ _ => ?_, fun _ => ?_, replaceSweep_keepsRecords s⟩
  all_goals
    repeat' split
    all_goals simp

/-- The commands of the mode (R186 to R188). -/
@[simp] theorem modeReplies_keepRecords (s : State) :
    KeepsRecords s (activateReply s).1 ∧ KeepsRecords s (captiveOnReply s).1 ∧
    KeepsRecords s (captiveOffReply s).1 ∧ KeepsRecords s (passivateReply s).1 := by
  unfold activateReply captiveOnReply captiveOffReply passivateReply
  refine ⟨?_, ?_, ?_, ?_⟩
  all_goals split <;> simp [activateLines, modeSettle, captiveLines, releaseLines, clearLimiter, cancelAll, markAllDiscard]

end Sys2Proof.Machine
end

section
/-!
PROOFS. The form of the incident log (R172) and the ranges and worn flags of the head records (R162, R167) over every
command. An incident keeps the log's form, and a change within the ranges, its worn flag evaluated, keeps a head record's;
every operation changes the log by incidents alone and the head records by such changes alone.
-/

namespace Sys2Proof.Machine

/-! ### The log -/

/-- The log of power-up, and as CLEAR LOG leaves it with the lifetime count kept (R172, R176). -/
theorem logOk_empty {n : Nat} (h : n ≤ 65535) : LogOk ⟨List.replicate 8 none, 0, 0, n⟩ :=
  ⟨rfl, Nat.zero_le _, Nat.zero_le _, h, fun _ => rfl, nofun,
    fun k hk => by rw [List.getD_replicate _ hk]; rfl⟩

/-- Until 8 incidents are held the position after the index is the first empty one (R172). -/
theorem next_of_logOk {l : IncidentLog} (h : LogOk l) (hroom : l.held < 8) : l.index % 8 = l.held := by
  obtain ⟨-, -, -, -, hfirst, -, -⟩ := h
  have := hfirst hroom
  omega

/-- An incident written at the position after the index keeps the log's form (R172). -/
theorem logOk_loggedIn {l : IncidentLog} {k : IncidentKind} {s : State} (h : LogOk l) : LogOk (loggedIn k s l) := by
  have hnext := next_of_logOk h
  obtain ⟨hlength, hheld, hcount, hmost, -, -, hfilled⟩ := h
  refine ⟨by simpa using hlength, Nat.min_le_right _ _, ?counted, Nat.min_le_right _ _, ?first, ?newest,
    fun j hj => ?filled⟩
  case counted | first | newest => dsimp only; omega
  case filled =>
    by_cases hat : l.index % 8 = j
    · subst hat
      have hnow : l.index % 8 < min (l.held + 1) 8 := by omega
      simp [List.getD_eq_getElem?_getD, hlength, hj, hnow]
    · have hsame : j < min (l.held + 1) 8 ↔ j < l.held := by omega
      simp only [List.getD_eq_getElem?_getD, List.getElem?_set_ne hat]
      rw [← List.getD_eq_getElem?_getD, hfilled j hj]
      simp [hsame]

/-! ### Head records -/

/-- The ranges of a head record (R162). -/
structure HeadInRange (r : HeadRecord) : Prop where
  score : r.score ≤ 200
  threshold : r.threshold ≤ 200
  cleanReads : r.cleanReads ≤ 65535
  recoveries : r.recoveries ≤ 65535
  losses : r.losses ≤ 65535

theorem HeadOk.inRange {r : HeadRecord} (h : HeadOk r) : HeadInRange r := by
  obtain ⟨hscore, hthreshold, hclean, hrecovered, hlost, -, -⟩ := h
  exact ⟨hscore, hthreshold, hclean, hrecovered, hlost⟩

/-- The worn flag evaluated is true to the score (R167). -/
theorem headOk_evalWorn {r : HeadRecord} (h : HeadInRange r) : HeadOk (evalWorn r) := by
  rw [evalWorn_eq]
  refine ⟨h.score, h.threshold, h.cleanReads, h.recoveries, h.losses, fun hlow => if_pos hlow,
    fun (hhigh : r.threshold + 16 ≤ r.score) => ?_⟩
  have hlow : ¬r.score ≤ r.threshold := by omega
  exact (if_neg hlow).trans (if_pos hhigh)

theorem countUp_le (n : Nat) : countUp n ≤ 65535 := Nat.min_le_right _ _

/-! ### Sound records -/

/-- Where `lg` holds the log is in its form, and where `hd` holds the head records are in theirs. -/
structure SoundRecords (lg hd : Prop) (hs : List HeadRecord) (l : IncidentLog) : Prop where
  log : lg → LogOk l
  heads : hd → hs.length = 16 ∧ ∀ r ∈ hs, HeadOk r

/-- The parts of a state that `SoundRecords` looks at. -/
@[simp] abbrev Sound (lg hd : Prop) (s : State) : Prop := SoundRecords lg hd s.heads s.log

variable {lg hd : Prop} {s : State}

@[simp] theorem sound_ite {p : Prop} [Decidable p] {hs hs' : List HeadRecord} {l l' : IncidentLog} :
    SoundRecords lg hd (if p then hs else hs') (if p then l else l') ↔
      if p then SoundRecords lg hd hs l else SoundRecords lg hd hs' l' := by
  split <;> rfl

@[simp] theorem logIncident_sound {k} (h : Sound lg hd s) : Sound lg hd (logIncident k s) :=
  ⟨fun hl => logOk_loggedIn (h.log hl), h.heads⟩

/-- A change of a head record within its ranges keeps the records sound (R162, R167, R168). -/
theorem changeHead_sound {n f} (hf : ∀ r, HeadInRange r → HeadInRange (f r)) (h : Sound lg hd s) :
    Sound lg hd (changeHead n f s) := by
  unfold changeHead
  split
  · exact h
  next r hr =>
    have hset : Sound lg hd { s with heads := s.heads.set n (evalWorn (f r)) } := by
      refine ⟨h.log, fun hh => ?_⟩
      obtain ⟨hlength, hok⟩ := h.heads hh
      refine ⟨by simpa using hlength, fun x hx => ?_⟩
      rcases List.mem_or_eq_of_mem_set hx with hx | rfl
      · exact hok x hx
      · exact headOk_evalWorn (hf r (hok r (List.mem_of_getElem? hr)).inRange)
    dsimp only
    split
    · exact logIncident_sound hset
    · exact hset

@[simp] theorem creditCleanLook_sound {n} (h : Sound lg hd s) : Sound lg hd (creditCleanLook n s) :=
  changeHead_sound (fun _ hr =>
    { hr with score := Nat.min_le_right _ _, cleanReads := countUp_le _ }) h

@[simp] theorem debitLiveRead_sound {n} (h : Sound lg hd s) : Sound lg hd (debitLiveRead n s) :=
  changeHead_sound (fun _ hr => { hr with score := (Nat.sub_le _ _).trans hr.score }) h

@[simp] theorem noticeRecovered_sound {n m k} (h : Sound lg hd s) : Sound lg hd (noticeRecovered n m k s) :=
  changeHead_sound (fun _ hr =>
    { hr with score := (Nat.sub_le _ _).trans hr.score, recoveries := countUp_le _ }) h

@[simp] theorem noticeLost_sound {n} (h : Sound lg hd s) : Sound lg hd (noticeLost n s) :=
  changeHead_sound (fun _ hr =>
    { hr with score := (Nat.sub_le _ _).trans hr.score, losses := countUp_le _ }) h

theorem clamp_le {lo hi v : Nat} (h : lo ≤ hi) : clamp lo hi v ≤ hi := max_le h (Nat.min_le_right _ _)

/-- The fields a SET HEAD selects are clamped into their ranges (R169). -/
theorem selectHead_inRange {m th sc : Nat} {r : HeadRecord} (h : HeadInRange r) : HeadInRange (selectHead m th sc r) := by
  refine { h with score := ?_, threshold := ?_ } <;> dsimp only [selectHead] <;> split
  · exact clamp_le (Nat.zero_le _)
  · exact h.score
  · exact clamp_le (Nat.zero_le _)
  · exact h.threshold

/-! ### The ends of jobs, and rungs -/

@[simp] theorem endRecovered_sound {a m f} (h : Sound lg hd s) : Sound lg hd (endRecovered a m f s) := by
  unfold endRecovered
  split
  · exact h
  · simp [h]

/-- Here `logIncident_keeps` would part the head records from the log that `logIncident_sound` speaks of. -/
@[simp] theorem endLost_sound {a k} (h : Sound lg hd s) : Sound lg hd (endLost a k s) := by
  unfold endLost
  split
  · exact h
  · simp [-logIncident_keeps, h]

@[simp] theorem arriveRung_sound {a} (h : Sound lg hd s) : Sound lg hd (arriveRung a s) := by
  unfold arriveRung
  split
  · exact h
  · simp [h]

@[simp] theorem startRung_sound {a} (h : Sound lg hd s) : Sound lg hd (startRung a s) := by
  unfold startRung
  dsimp only
  split <;> simp [h]

@[simp] theorem failRung_sound {a f} (h : Sound lg hd s) : Sound lg hd (failRung a f s) := by
  unfold failRung
  split
  · exact h
  · split <;> simp [h]

@[simp] theorem endRung_sound {a r} (h : Sound lg hd s) : Sound lg hd (endRung a r s) := by
  unfold endRung
  split
  · split <;> simp [h]
  · simp [h]

@[simp] theorem chargeRead_sound {a} (h : Sound lg hd s) : Sound lg hd (chargeRead a s) := by
  unfold chargeRead
  dsimp only
  split <;> simp [h]

@[simp] theorem enqueueJob_sound {j} (h : Sound lg hd s) : Sound lg hd (enqueueJob j s) := by simp [enqueueJob, h]

@[simp] theorem admitSector_sound {a c o} (h : Sound lg hd s) : Sound lg hd (admitSector a c o s) := by
  simp [admitSector, h]

@[simp] theorem requestJob_sound {a c o} (h : Sound lg hd s) : Sound lg hd (requestJob a c o s) := by
  unfold requestJob
  split
  · exact logIncident_sound h
  · exact admitSector_sound h

/-! ### Grants, positioning and the acts of settling -/

@[simp] theorem jobPositionFailure_sound {a} (h : Sound lg hd s) : Sound lg hd (jobPositionFailure a s) := by
  unfold jobPositionFailure
  split <;> simp [h]

@[simp] theorem takeUpRung_sound {a} (h : Sound lg hd s) : Sound lg hd (takeUpRung a s) := by
  unfold takeUpRung
  split <;> simp [h]

@[simp] theorem grantHead_sound (h : Sound lg hd s) : Sound lg hd (grantHead s) := by
  unfold grantHead
  split <;> simp [h]

@[simp] theorem handOver_sound (h : Sound lg hd s) : Sound lg hd (handOver s) := by
  unfold handOver
  dsimp only
  split <;> simp [h]

@[simp] theorem sweepRequest_sound {a} (h : Sound lg hd s) : Sound lg hd (sweepRequest a s) := by
  unfold sweepRequest
  split
  · exact h
  · split
    · exact logIncident_sound h
    · exact admitSector_sound h

@[simp] theorem arrive_sound {t} (h : Sound lg hd s) : Sound lg hd (arrive t s) := by
  unfold arrive
  split <;> simp [h]

@[simp] theorem makeMove_sound {t} (h : Sound lg hd s) : Sound lg hd (makeMove t s) := by
  unfold makeMove
  split
  · split <;> simp [h]
  · dsimp only
    split <;> simp [h]

@[simp] theorem travelFails_sound {m t} (h : Sound lg hd s) : Sound lg hd (travelFails m t s) := by
  unfold travelFails
  cases t.purpose
  case reseatLive | reseatWithhold => simp [h]
  case rung | sweep =>
    cases t.retry with
    | none => simp [h]
    | some _ => cases headJob s <;> simp [h]

@[simp] theorem readSector_sound {j} (h : Sound lg hd s) : Sound lg hd (readSector j s) := by simp [readSector, h]

@[simp] theorem runJob_sound (h : Sound lg hd s) : Sound lg hd (runJob s) := by
  unfold runJob
  split <;> simp [h]

theorem doAct_sound {x} (h : Sound lg hd s) : Sound lg hd (doAct x s) := by
  cases x
  case move => cases ht : s.drv.travel <;> simp [doAct, ht, h]
  all_goals simp [doAct, h]

@[simp] theorem settle_sound (h : Sound lg hd s) : Sound lg hd (settle s) :=
  settle_induct (P := Sound lg hd) (fun _ _ => doAct_sound) h

/-! ### The LOST judgement and the drive's events -/

@[simp] theorem judgeLost_sound (h : Sound lg hd s) : Sound lg hd (judgeLost s) := by
  simp [judgeLost, -logIncident_keeps, h]

@[simp] theorem stepFails_sound (h : Sound lg hd s) : Sound lg hd (stepFails s) := by
  unfold stepFails
  cases s.drv.step with
  | none => exact h
  | some st => cases hm : st.move <;> cases ht : s.drv.travel <;> simp [hm, ht, h]

@[simp] theorem promoteLive_sound {a f} (h : Sound lg hd s) : Sound lg hd (promoteLive a f s) := by
  unfold promoteLive
  split
  · exact h
  · split <;> simp [h]

@[simp] theorem liveFull_sound {a f} (h : Sound lg hd s) : Sound lg hd (liveFull a f s) := by simp [liveFull, h]

@[simp] theorem recoveryFull_sound {a f} (h : Sound lg hd s) : Sound lg hd (recoveryFull a f s) := by
  simp [recoveryFull, h]

@[simp] theorem sweepFull_sound {a f} (h : Sound lg hd s) : Sound lg hd (sweepFull a f s) := by simp [sweepFull, h]

@[simp] theorem captureEndsFull_sound {c f r} (h : Sound lg hd s) : Sound lg hd (captureEndsFull c f r s) := by
  unfold captureEndsFull
  split <;> simp [h]

@[simp] theorem captureEndsShort_sound {c} (h : Sound lg hd s) : Sound lg hd (captureEndsShort c s) := by
  unfold captureEndsShort
  split <;> simp [h]

@[simp] theorem indexAtCapture_sound (h : Sound lg hd s) : Sound lg hd (indexAtCapture s) := by
  unfold indexAtCapture
  split <;> simp [h]

@[simp] theorem resumeAfterFault_sound {e} (h : Sound lg hd s) : Sound lg hd (resumeAfterFault e s) := by
  unfold resumeAfterFault
  dsimp only
  split <;> simp [h]

@[simp] theorem voteFails_sound {a} (h : Sound lg hd s) : Sound lg hd (voteFails a s) := by
  unfold voteFails
  split <;> simp [h]

@[simp] theorem takeOutcome_sound {v} (h : Sound lg hd s) : Sound lg hd (takeOutcome v s) := by
  unfold takeOutcome
  dsimp only
  split <;> simp [h]

/-! ### The service commands -/

theorem setHeadReply_sound {n m th sc} (h : Sound lg hd s) : Sound lg hd (setHeadReply n m th sc s).1 := by
  unfold setHeadReply
  split
  · exact h
  · exact changeHead_sound (fun _ => selectHead_inRange) h

theorem clearLogReply_sound (h : Sound lg hd s) : Sound lg hd (clearLogReply s).1 := by
  refine ⟨fun hl => ?_, h.heads⟩
  obtain ⟨-, -, -, hmost, -⟩ := h.log hl
  exact logOk_empty hmost

theorem queueSectorReply_sound {a0 a1} (h : Sound lg hd s) : Sound lg hd (queueSectorReply a0 a1 s).1 := by
  unfold queueSectorReply
  split
  · exact h
  · refine addressed_keeps h fun a => ?_
    unfold queueEntry
    repeat' split
    all_goals simp [queued, requeue, h]

/-- A command run from a frame keeps the records sound; SET HEAD and CLEAR LOG alone set them. -/
theorem runCommand_sound (c : Instr) (h : Sound lg hd s) : Sound lg hd (runCommand c s) := by
  cases c
  case setHead => exact setHeadReply_sound h
  case clearLog => exact clearLogReply_sound (s := s) h
  case queueSector => exact settle_sound (s := answer _ _) (queueSectorReply_sound h)
  case readHealth | readLog | readLadder | readZones | exportPage | readMap | readQueue =>
    simp [runCommand, answer, readHealthReply_state, readLogReply_state, readLadderReply_state, readZonesReply_state,
      exportPageReply_state, readMapReply_state, readQueueReply_state, h]
  all_goals simp [runCommand, answer, h]

@[simp] theorem judgeField_sound {f} (h : Sound lg hd s) : Sound lg hd (judgeField f s) := by
  unfold judgeField
  dsimp only
  repeat' split
  case h_2 => exact runCommand_sound _ h
  all_goals exact h

theorem onFrame_sound {act : State → State} (hact : ∀ t, Sound lg hd t → Sound lg hd (act t)) (h : Sound lg hd s) :
    Sound lg hd (onFrame act s) := by
  unfold onFrame
  split
  · exact hact _ h
  · exact h

/-! ### Every command -/

/-- A command the controller or the drive brings, or a timer, that is no order, no field and no service command. -/
theorem exec_event_sound {c : Instr} (h : Sound lg hd s) (hp : isPowerUp c = false) (ho : orderOf c = none)
    (hf : carriesField c = false) (he : encodeFrame c = none) : LeadsTo (Sound lg hd) (exec c s) := by
  cases c
  case powerUp => cases hp
  case position | head | returnOrder | margin | targetRead | targetWrite | clear => cases ho
  case writeFieldFull | commandFrameRefused => cases hf
  case driveIndex | driveReadyRises | driveFaultRises | driveProtectChanges | positioningStepCompletes
      | positioningStepFails =>
    simp [exec, execDriveIndex, execDriveReadyRises, execDriveFaultRises, execDriveProtectChanges,
      execPositioningStepCompletes, execPositioningStepFails, h]
  case readGate | readGateFalls | writeGate | writeGateFalls =>
    dsimp only [exec, execReadGate, execReadGateFalls, execWriteGate, execWriteGateFalls]
    repeat' split
    all_goals simp [h]
  case writeClockTimeout | servedTransferEnds | generatedMatch =>
    dsimp only [exec, execWriteClockTimeout, execServedTransferEnds, execGeneratedMatch]
    repeat' split
    all_goals simp [h]
  case driveMatch | captureFull | readClockTimeout | driveReadyFalls | driveFaultFalls =>
    dsimp only [exec, execDriveMatch, execCaptureFull, execReadClockTimeout, execDriveReadyFalls, execDriveFaultFalls]
    repeat' split
    all_goals simp [h]
  case positionTimeout | marginUnknownSettle | faultEpisodeTimeout | indexWatchdog =>
    dsimp only [exec, execPositionTimeout, execMarginUnknownSettle, execFaultEpisodeTimeout, execIndexWatchdog]
    repeat' split
    all_goals simp [h]
  case generatedIndex | viewSettle | quietInterval | withholdLimit | voteCompletes =>
    dsimp only [exec, execGeneratedIndex, execViewSettle, execQuietInterval, execWithholdLimit, execVoteCompletes]
    repeat' split
    all_goals simp [h]
  case workDurationReached | restEnds | idleTimer =>
    dsimp only [exec, execWorkDurationReached, execRestEnds, execIdleTimer]
    split <;> simp [h]
  all_goals cases he

theorem exec_field_sound {c : Instr} (h : Sound lg hd s) (hf : carriesField c = true) :
    LeadsTo (Sound lg hd) (exec c s) := by
  cases c
  case commandFrameRefused =>
    exact leadsTo_next.2 (onFrame_sound (fun _ ht => judgeField_sound ht) (by simpa using h))
  case writeFieldFull =>
    dsimp only [exec, execWriteFieldFull]
    repeat' split
    all_goals simp [h]
  all_goals cases hf

/-- At power-up the log is empty and every head record is fresh (R162, R172, R201). -/
theorem poweredUp_sound {straps : Straps} {lines : Lines} {pending : List Instr} :
    Sound lg hd (State.poweredUp straps lines pending) :=
  ⟨fun _ => logOk_empty (Nat.zero_le _), fun _ => ⟨rfl, fun r hr => by
    rw [List.eq_of_mem_replicate hr]
    simp [HeadOk, HeadRecord.fresh]⟩⟩

/-- Every command keeps the log's form and the head records'. -/
theorem exec_sound {c : Instr} (h : Sound lg hd s) : LeadsTo (Sound lg hd) (exec c s) := by
  cases hp : isPowerUp c with
  | true =>
    cases c
    case powerUp => exact leadsTo_next.2 poweredUp_sound
    all_goals cases hp
  | false =>
    cases hf : carriesField c with
    | true => exact exec_field_sound h hf
    | false =>
      cases ho : orderOf c with
      | some x => simp [exec_order ho, h]
      | none =>
        cases he : encodeFrame c with
        | some us =>
          obtain ⟨dt, hx⟩ := exec_service he s
          rw [hx]
          exact leadsTo_next.2 (onFrame_sound (fun _ => runCommand_sound c) (by simpa using h))
        | none => exact exec_event_sound h hp ho hf he

/-- A step is its front command's, or none. -/
theorem step_sound {t : State} (h : Sound lg hd s) (hstep : step s = .next t) : Sound lg hd t := by
  unfold step at hstep
  split at hstep
  · cases hstep
    exact h
  next i rest _ => exact exec_sound (s := { s with pending := rest }) h t hstep

/-! ### The obligations -/

/-- Settles O15: every change of the log is an incident, a cleared log or power-up, and each leaves its form. -/
theorem logFormIsKept : Obligations.LogFormIsKept := by
  intro s t hlog hstep
  have h : Sound True False s := ⟨fun _ => hlog, False.elim⟩
  exact (step_sound h hstep).log trivial

/-- Settles O16: every change of a head record stays in its ranges and evaluates the worn flag. -/
theorem headRecordsAreKept : Obligations.HeadRecordsAreKept := by
  intro s t hheads hstep
  have h : Sound False True s := ⟨False.elim, fun _ => hheads⟩
  exact (step_sound h hstep).heads trivial

end Sys2Proof.Machine
end

section
/-!
PROOFS. The service commands of the head records and the log (R167 to R169, R172 to R176), and those that report the
tables, the heads and the log (R175, R194, R195): each answers in the state it finds, or with one record set.
-/

namespace Sys2Proof.Machine

variable {s : State} {n m th sc k : Nat} {r : HeadRecord}

/-! ### SET HEAD -/

/-- A head's change with its incident when it wears the head (R167, R168). -/
theorem changeHead_eq (hr : s.heads[n]? = some r) (f : HeadRecord → HeadRecord) : changeHead n f s =
    let worn := wornAt (f r) (f r).score
    let set : State := { s with heads := s.heads.set n { f r with worn := worn } }
    if worn && !r.worn then { set with log := loggedIn (.headWorn n) s s.log } else set := by
  simp only [changeHead, hr, evalWorn_eq, logIncident_eq]

/-- The record a head's change leaves is the changed one, its worn flag evaluated (R167). -/
theorem headRecord_changeHead (hr : s.heads[n]? = some r) (f : HeadRecord → HeadRecord) :
    headRecord (changeHead n f s) n = { f r with worn := wornAt (f r) (f r).score } := by
  have hlt : n < s.heads.length := (List.getElem?_eq_some_iff.1 hr).1
  rw [changeHead_eq hr]
  dsimp only
  split <;> simp [headRecord, hlt]

theorem clamp_zero (hi v : Nat) : clamp 0 hi v = min v hi := Nat.zero_max _

/-- SET HEAD's effect on a real head, with the record it reports (R169). -/
theorem setHeadReply_inRange (hn : n ≤ 15) (hr : s.heads[n]? = some r) :
    setHeadReply n m th sc s =
      let set := selectHead m th sc r
      (changeHead n (selectHead m th sc) s, ⟨.done, [n, set.score, set.threshold, flagCode (wornAt set set.score)],
        twoUnits r.cleanReads ++ twoUnits r.recoveries ++ twoUnits r.losses⟩) := by
  simp only [setHeadReply, if_neg (Nat.not_lt.2 hn), headRecord_changeHead hr]
  rfl

/-- Settles O43: the reply on a real head by the record it sets, off the heads by the operand's judgement. -/
theorem setHeadSets : Obligations.SetHeadSets := by
  intro dt tag h mask threshold score r s haccepts
  obtain ⟨work, idle, hbegin⟩ := begin_changes dt s
  rw [hbegin]
  intro b _ hhead th sc worn set slot logged
  have replies {t : State} {r : Reply} (hreply : setHeadReply h mask threshold score (fieldEnds b) = (fieldEnds t, r)) :
      exec (.setHead dt tag h mask threshold score) s =
        .next (answered tag r.result.code (padTo 5 r.header ++ r.body) t) :=
    exec_replies haccepts rfl (by rw [hbegin]; exact hreply)
  by_cases hh : h ≤ 15
  · have hselect : selectHead mask threshold score r = { r with score := sc, threshold := th } := by
      simp only [selectHead, clamp_zero]; rfl
    have hset : changeHead h (selectHead mask threshold score) (fieldEnds b) =
        fieldEnds (if worn && !r.worn then logged else set) := by
      rw [changeHead_eq (s := fieldEnds b) (hhead hh), hselect]
      change (if worn && !r.worn then _ else _) = _
      split <;> rfl
    rw [if_pos hh]
    refine (replies ((setHeadReply_inRange (s := fieldEnds b) hh (hhead hh)).trans (congrArg (·, _) hset))).trans ?_
    rw [hselect]
    rfl
  · rw [if_neg hh]
    exact replies (r := refuse .range) (if_pos (Nat.not_le.1 hh))

/-! ### CLEAR LOG -/

/-- Settles O50: the position after the cleared log's index is the first, where the next incident goes (R172, R176). -/
theorem clearLogClears : Obligations.ClearLogClears := by
  intro dt tag next s haccepts _
  obtain ⟨work, idle, hbegin⟩ := begin_changes dt s
  rw [hbegin]
  intro b t
  refine ⟨?_, rfl, rfl⟩
  exact exec_replies (c := .clearLog dt tag) (t := { b with log := ⟨List.replicate 8 none, 0, 0, s.log.lifetime⟩ })
    haccepts rfl (by rw [hbegin]; rfl)

/-! ### A response's trailing zeros -/

/-- Zeros at a frame's end are its padding (R205). -/
theorem padTo_zeros (us : List Nat) : padTo n (us ++ List.replicate k 0) = padTo n us := by
  simp only [padTo, List.take_append, List.take_replicate, List.append_assoc, List.length_append,
    List.length_replicate, List.replicate_append_replicate]
  congr 2
  omega

/-- A response whose payload ends with zeros is the one without them (R182, R205). -/
theorem answered_zeros {tag code : Nat} (payload : List Nat) :
    answered tag code (payload ++ List.replicate k 0) s = answered tag code payload s := by
  simp only [answered, frameField, ← List.append_assoc, padTo_zeros]

/-! ### READ LOG -/

/-- The units of the recent orders in a log entry, four to each (R209). -/
theorem orderUnits_length (rs : List OrderRecord) : (rs.flatMap OrderRecord.units).length = 4 * rs.length := by
  induction rs with
  | nil => rfl
  | cons x xs ih =>
    rw [List.flatMap_cons, List.length_append, ih, List.length_cons]
    simp only [OrderRecord.units, twoUnits, List.length_append, List.length_cons, List.length_nil]
    omega

/-- A log entry of at most 4 recent orders: its units, with zeros up to the 27th (R209). -/
theorem incidentUnits_eq {i : Incident} (h : i.orders.length ≤ 4) : ∃ k, i.units =
    i.kind.units ++ twoUnits i.time ++ [i.orders.length] ++ i.orders.flatMap OrderRecord.units ++ List.replicate k 0 := by
  refine ⟨16 - (i.orders.flatMap OrderRecord.units).length, ?_⟩
  rw [Incident.units, padTo, List.take_of_length_le (by rw [orderUnits_length]; omega), ← List.append_assoc]

/-- The circle position of a position counted from the newest, with 8 added below 1 (R175). -/
theorem circlePosition {index : Nat} (hk : 1 ≤ k) (hk8 : k ≤ 8) (hindex : index ≤ 8) :
    (index + 8 - k) % 8 = if k ≤ index then index - k else index + 8 - k := by
  split <;> omega

/-- READ LOG of a position that holds an entry (R175). -/
theorem readLogReply_held {i : Incident} (hk : 1 ≤ k) (hheld : k ≤ s.log.held) (h8 : s.log.held ≤ 8)
    (hindex : s.log.index ≤ 8)
    (hi : s.log.positions[if k ≤ s.log.index then s.log.index - k else s.log.index + 8 - k]? = some (some i)) :
    readLogReply k s = (s, ⟨.done, [k, s.log.held] ++ twoUnits s.log.lifetime, i.units⟩) := by
  have hentry : logEntry k s.log = some i := by
    simp only [logEntry, circlePosition hk (hheld.trans h8) hindex, hi]
  rw [readLogReply, if_neg (by omega), if_neg (Nat.not_lt.2 hheld)]
  simp only [hentry]

/-! ### The tables, the heads and the log reported -/

/-- Settles O48: each reply by its judgement of the operand, its records as R206 and R209 lay them out. -/
theorem tablesAreReported : Obligations.TablesAreReported := by
  intro dt tag k i s haccepts
  obtain ⟨work, idle, hbegin⟩ := begin_changes dt s
  rw [hbegin]
  intro b lad flag pair strobe offset rungUnits zone headUnits order kind incident
  have replies {c : Instr} {reply : State → State × Reply} {r : Reply}
      (hexec : exec c s = .next (onFrame (fun s => answer tag (reply s)) (begin dt s)))
      (hreply : reply (fieldEnds b) = (fieldEnds b, r)) :
      exec c s = .next (answered tag r.result.code (padTo 5 r.header ++ r.body) b) :=
    exec_replies haccepts hexec (by rw [hbegin]; exact hreply)
  refine ⟨?ladder, ?zones, ?health, fun hk => ?_, fun hlow hhigh hheld => ?_,
    fun hlow hheld h8 hi hindex _ horders => ?entry⟩
  case ladder =>
    by_cases hk : k ≤ 7
    · rw [if_pos hk]
      exact replies (reply := readLadderReply k) rfl (if_neg (Nat.not_lt.2 hk))
    · rw [if_neg hk]
      exact replies (reply := readLadderReply k) rfl (if_pos (Nat.not_le.1 hk))
  case zones =>
    have hzone : zoneUnits = zone := by
      funext x
      rcases x with _ | ⟨_ | _, _, _, _⟩ <;> rfl
    rw [← hzone]
    exact replies (reply := readZonesReply) rfl rfl
  case health =>
    by_cases hk : k ≤ 1
    · rw [if_pos hk, Nat.mul_comm 8 k]
      exact replies (reply := readHealthReply k) rfl (if_neg (Nat.not_lt.2 hk))
    · rw [if_neg hk]
      exact replies (reply := readHealthReply k) rfl (if_pos (Nat.not_le.1 hk))
  · exact replies (reply := readLogReply k) (r := refuse .range) rfl (if_pos hk)
  · exact replies (reply := readLogReply k) (r := refuse .notFound) rfl
      ((if_neg (by omega)).trans (if_pos hheld))
  case entry =>
    have horder : OrderRecord.units = order := by
      funext x
      obtain ⟨o, time⟩ := x
      cases o <;> rfl
    have hkind : i.kind.units = kind := by
      dsimp only [kind]
      cases i.kind with
      | jobLost _ _ _ _ _ weak => cases weak <;> rfl
      | driveLost | headWorn | notAdmitted => rfl
    obtain ⟨n, hunits⟩ := incidentUnits_eq horders
    have hincident : i.units = incident ++ List.replicate n 0 := by
      rw [hunits, horder, hkind]
      rfl
    refine (replies (reply := readLogReply k) rfl (readLogReply_held hlow hheld h8 hindex hi)).trans ?_
    rw [hincident, ← List.append_assoc, answered_zeros]
    rfl

end Sys2Proof.Machine
end

section
/-!
PROOFS. Command frames (R177 to R182, R206): the units a command is carried in and what is decoded from them, the field
that carries them to service sector 0, and what its judgement makes of it.
-/

namespace Sys2Proof.Machine

variable {st : Straps} {i : Instr} {us : List Nat} {f : Field} {s : State} {n k dt : Nat}

/-! ### Units padded to a frame -/

theorem padTo_length (n : Nat) (us : List Nat) : (padTo n us).length = n := by
  rw [padTo, List.length_append, List.length_take, List.length_replicate]
  omega

/-- Units that fit a frame are read from it as they are: the units past them are 0 (R205). -/
theorem unitAt_padTo (h : us.length ≤ n) : unitAt (padTo n us) = unitAt us := by
  funext k
  rw [unitAt, unitAt, padTo, List.take_of_length_le h]
  rcases Nat.lt_or_ge k us.length with hk | hk
  · rw [List.getD_append _ _ _ _ hk]
  · rw [List.getD_append_right _ _ _ _ hk, List.getD_eq_default _ _ hk]
    rcases Nat.lt_or_ge (k - us.length) (n - us.length) with hn | hn
    · rw [List.getD_replicate _ hn]
    · rw [List.getD_eq_default _ _ (by simpa using hn)]

/-- The units of a padded frame are those of its command, and zeros. -/
theorem padTo_units (h : ∀ u ∈ us, u < 4096) : ∀ u ∈ padTo n us, u < 4096 := by
  intro u hu
  rcases List.mem_append.1 hu with hu | hu
  · exact h u (List.mem_of_mem_take hu)
  · rw [List.eq_of_mem_replicate hu]
    decide

/-! ### The decoder and the encoder (R206) -/

/-- The decoder reads a frame unit by unit, and the body of IMPORT PAGE alone as a whole. -/
theorem decodeFrame_congr {vs : List Nat} (hunits : unitAt vs = unitAt us)
    (hbody : unitAt us 1 = 14 → vs.drop 8 = us.drop 8) : decodeFrame vs = decodeFrame us := by
  unfold decodeFrame
  rw [hunits]
  by_cases h : unitAt us 1 = 14
  · rw [h, hbody h]
  · dsimp only
    split
    case h_14 h' => exact absurd h' h
    all_goals rfl

/-- The codes 1 to 26 are the commands (R206). -/
theorem decodeFrame_none (h : unitAt us 1 = 0 ∨ 26 < unitAt us 1) : decodeFrame us = none := by
  unfold decodeFrame
  dsimp only
  split
  case h_27 => rfl
  all_goals omega

/-- The units of a command's frame decode to it, given no time of its own. -/
theorem decodeFrame_encodeFrame (h : encodeFrame i = some us) : decodeFrame us = some (i.atTime 0) := by
  cases i <;> cases h
  all_goals rfl

/-- A command's units fit its frame, and IMPORT PAGE's fill it (R177). -/
theorem encodeFrame_fits (hbody : bodyFits st i = true) (h : encodeFrame i = some us) :
    us.length ≤ st.data ∧ (unitAt us 1 = 14 → us.length = st.data) := by
  have hdata : 18 ≤ st.data - 8 := bodyUnits_ge st
  cases i <;> cases h
  case importPage _ tag a0 a1 page body =>
    have hlen : body.length = st.data - 8 := of_decide_eq_true hbody
    have hall : (frameOf 14 tag ([a0, a1, page, 0, 0] ++ body)).length = st.data := by
      simp only [frameOf, List.length_cons, List.length_append, List.length_nil, hlen]
      omega
    exact ⟨hall.le, fun _ => hall⟩
  all_goals exact ⟨by simp only [frameOf, List.length_cons, List.length_nil]; omega, nofun⟩

theorem isUnit_iff {u : Nat} : isUnit u = true ↔ u < 4096 := decide_eq_true_iff

/-- The units of a command the cables can carry are units (R177). -/
theorem encodeFrame_units (hwf : i.wf = true) (h : encodeFrame i = some us) : ∀ u ∈ us, u < 4096 := by
  cases i <;> cases h
  case importPage =>
    simp only [Instr.wf, isBody, Bool.and_eq_true, List.all_eq_true, isUnit_iff, List.forall_mem_cons] at hwf
    obtain ⟨hargs, -, hbody⟩ := hwf
    simpa [frameOf, commandMark, hargs] using hbody
  all_goals simpa [Instr.wf, isUnit_iff, frameOf, commandMark] using hwf

theorem encodeFrame_mark (h : encodeFrame i = some us) : unitAt us 0 = commandMark := by
  cases i <;> cases h
  all_goals rfl

/-- The frame that carries a command decodes to it. -/
theorem decodeFrame_padTo (hbody : bodyFits st i = true) (h : encodeFrame i = some us) :
    decodeFrame (padTo st.data us) = some (i.atTime 0) := by
  obtain ⟨hle, hfull⟩ := encodeFrame_fits hbody h
  rw [← decodeFrame_encodeFrame h]
  refine decodeFrame_congr (unitAt_padTo hle) fun hcode => ?_
  rw [padTo_of_le (hfull hcode).ge, List.take_of_length_le hle]

/-- Settles O12: the units of each command decode to it, and the padding of its frame changes nothing of that. -/
theorem frameDecodesToItsCommand : Obligations.FrameDecodesToItsCommand :=
  fun _ _ _ _ hbody h => decodeFrame_padTo hbody h

/-! ### A frame as a field -/

theorem unitRange_le_words (st : Straps) : 4096 ≤ 2 ^ st.bits := by
  rw [Straps.bits]
  cases st.width <;> decide

/-- What is taken in of words that fit the format is those words (R6). -/
theorem takeWords_self {b : Nat} (h : ∀ w ∈ f, w < 2 ^ b) : takeWords b f.length f = f := by
  induction f with
  | nil => rfl
  | cons w ws ih =>
    rw [List.length_cons, takeWords, Nat.mod_eq_of_lt (h w (by simp)), ih fun x hx => h x (by simp [hx])]

theorem map_lowUnit_lt (us : List Nat) : ∀ w ∈ us.map lowUnit, w < 4096 := by
  intro w hw
  obtain ⟨u, -, rfl⟩ := List.mem_map.1 hw
  exact Nat.mod_lt _ (by decide)

/-- A frame's data words are its units, within the width of any word (R177). -/
theorem frameData_lt (st : Straps) (us : List Nat) : ∀ w ∈ (padTo st.data us).map lowUnit, w < 2 ^ st.bits :=
  fun w hw => (map_lowUnit_lt _ w hw).trans_le (unitRange_le_words st)

/-- A frame's field passes the check (R9, R10). -/
theorem passes_frameField (st : Straps) (us : List Nat) : passes st.bits (frameField st us) = true :=
  decide_eq_true (foldedSum_append_checkWord (bits_pos st) (frameData_lt st us))

/-- A frame's field is taken in as it is written (R6). -/
theorem takeField_frameField (st : Straps) (us : List Nat) : takeField st (frameField st us) = frameField st us := by
  have hlen : (frameField st us).length = st.data + 1 := by simp [frameField, padTo_length]
  rw [takeField, ← hlen]
  refine takeWords_self fun w hw => ?_
  rcases List.mem_append.1 hw with hw | hw
  · exact frameData_lt st us w hw
  · rw [List.mem_singleton.1 hw, checkWord]
    exact (Nat.sub_le _ _).trans_lt (Nat.sub_lt (Nat.two_pow_pos _) Nat.one_pos)

/-- The units of a frame's field are the frame's (R177). -/
theorem fieldUnits_frameField (h : ∀ u ∈ us, u < 4096) : fieldUnits st (frameField st us) = padTo st.data us := by
  have hdata : (padTo st.data us).map lowUnit = padTo st.data us := map_lowUnit_of_units (padTo_units h)
  rw [fieldUnits, frameField, hdata, List.take_left' (padTo_length _ _), hdata]

/-- A unit of a written field is the low 12 bits of its word (R177). -/
theorem unitAt_fieldUnits (h : k < st.data) : unitAt (fieldUnits st f) k = f.getD k 0 % 4096 := by
  simp only [unitAt, fieldUnits, List.getD_eq_getElem?_getD, List.getElem?_map, List.getElem?_take, if_pos h]
  cases f[k]? <;> rfl

/-! ### The judgement of a written field (R179) -/

theorem judgeField_checkFails (h : passes s.straps.bits f = false) :
    judgeField f s = respond 0 (refuse .checkFail) s := by
  simp [judgeField, h]

section
variable (hpasses : passes s.straps.bits f = true)
include hpasses

theorem judgeField_badMark (h : unitAt (fieldUnits s.straps f) 0 ≠ commandMark) :
    judgeField f s = respond 0 (refuse .unknown) s := by
  simp [judgeField, hpasses, h]

variable (hmark : unitAt (fieldUnits s.straps f) 0 = commandMark)
include hmark

theorem judgeField_noCommand (h : decodeFrame (fieldUnits s.straps f) = none) :
    judgeField f s = respond (unitAt (fieldUnits s.straps f) 2) (refuse .unknown) s := by
  simp [judgeField, hpasses, hmark, h]

theorem judgeField_command (h : decodeFrame (fieldUnits s.straps f) = some i) : judgeField f s = runCommand i s := by
  simp [judgeField, hpasses, hmark, h]

end

/-- A frame's field is judged to be its command (R179). -/
theorem judgeField_frame (hwf : i.wf = true) (hbody : bodyFits s.straps i = true) (h : encodeFrame i = some us) :
    judgeField (frameField s.straps us) s = runCommand (i.atTime 0) s := by
  have hunits := fieldUnits_frameField (st := s.straps) (encodeFrame_units hwf h)
  refine judgeField_command (passes_frameField _ _) ?_ (hunits ▸ decodeFrame_padTo hbody h)
  rw [hunits, unitAt_padTo (encodeFrame_fits hbody h).1, encodeFrame_mark h]

/-- A service command acts as the command of its frame does (R179). -/
theorem exec_atTime (h : encodeFrame i = some us) :
    exec (i.atTime dt) s = .next (onFrame (runCommand (i.atTime 0)) (begin dt s)) := by
  cases i <;> cases h
  all_goals rfl

/-- Where a command frame can arrive both rows of a full field judge it, its field ended (R179; log 5). -/
theorem exec_fullField (haccepts : acceptsFrame s = true) (field : List Nat) :
    let judged := judgeField (takeField s.straps field) (fieldEnds (begin dt s))
    exec (.writeFieldFull dt field) s = .next judged ∧ exec (.commandFrameRefused dt field) s = .next judged := by
  constructor
  · cases hop : s.ctl.op with
    | none => simp [acceptsFrame, hop] at haccepts
    | some o =>
      simp only [acceptsFrame, hop, Bool.and_eq_true, decide_eq_true_eq, Bool.not_eq_true'] at haccepts
      obtain ⟨⟨hkind, hhead, hsec, hphase⟩, hended⟩ := haccepts
      have hwriting : writing (begin dt s) = some o :=
        writing_eq (by simpa using hop) hphase hended (.inr (.inl hkind))
      simp only [exec, execWriteFieldFull, hwriting, hkind, hhead, hsec, and_self, if_true, begin_keeps]
      rfl
  · rw [exec, execCommandFrameRefused, onFrame_accepted haccepts]
    dsimp only
    simp only [begin_keeps]

/-- Settles O13: either row judges the field, and the judgement runs the command. -/
theorem writtenFrameActsAsItsCommand : Obligations.WrittenFrameActsAsItsCommand := by
  intro dt i us s hwf hbody h haccepts
  have hstraps : (fieldEnds (begin dt s)).straps = s.straps := by simp
  have hjudged : judgeField (takeField s.straps (frameField s.straps us)) (fieldEnds (begin dt s)) =
      runCommand (i.atTime 0) (fieldEnds (begin dt s)) := by
    rw [takeField_frameField]
    exact hstraps ▸ judgeField_frame (s := fieldEnds (begin dt s)) hwf (hstraps.symm ▸ hbody) h
  obtain ⟨hfull, hrefused⟩ := exec_fullField (dt := dt) haccepts (frameField s.straps us)
  rw [exec_atTime h, onFrame_accepted haccepts, hfull, hrefused, hjudged]
  exact ⟨rfl, rfl⟩

/-- A refusal's response ends after its code: the payload is zeros (R182, R205). -/
theorem respond_refuse (tag : Nat) (r : Result) (s : State) :
    respond tag (refuse r) (fieldEnds s) = answered tag r.code [] s :=
  answered_zeros (k := 5) (s := s) (tag := tag) (code := r.code) []

/-- Settles O14: either row judges the field, by its check, its mark and its code in turn. -/
theorem damagedFrameIsRefused : Obligations.DamagedFrameIsRefused := by
  intro dt field s haccepts
  obtain ⟨work, idle, hbegin⟩ := begin_changes dt s
  rw [hbegin]
  intro b f unit reply
  have replies {tag : Nat} {r : Result} (h : judgeField f (fieldEnds b) = respond tag (refuse r) (fieldEnds b)) :
      exec (.commandFrameRefused dt field) s = reply tag r.code ∧
        exec (.writeFieldFull dt field) s = reply tag r.code := by
    obtain ⟨hfull, hrefused⟩ := exec_fullField (dt := dt) haccepts field
    rw [hbegin] at hfull hrefused
    rw [hfull, hrefused, h, respond_refuse]
    exact ⟨rfl, rfl⟩
  have hdata : 18 ≤ s.straps.data - 8 := bodyUnits_ge s.straps
  have hunit {k : Nat} (hk : k < 3) : unitAt (fieldUnits s.straps f) k = unit k := unitAt_fieldUnits (by omega)
  refine ⟨fun hfails => replies (r := .checkFail) (judgeField_checkFails hfails),
    fun hpasses hmark => replies (r := .unknown) (judgeField_badMark hpasses ?mark),
    fun hpasses hmark hcode => ?code⟩
  case mark => exact (hunit (by decide)).trans_ne hmark
  case code =>
    rw [← hunit (by decide)] at hmark
    rw [← hunit (k := 1) (by decide)] at hcode
    rw [← hunit (k := 2) (by decide)]
    exact replies (r := .unknown)
      (judgeField_noCommand (s := fieldEnds b) hpasses hmark (decodeFrame_none hcode))

end Sys2Proof.Machine
end

section
/-!
PROOFS. SET GEOMETRY and SET PARAMETERS (R190, R191): the order of judgement of the one, and what the other's record
does to the duty limiter at once (R145).
-/

namespace Sys2Proof.Machine

variable {s : State} {tag : Nat}

/-! ### SET GEOMETRY -/

/-- A geometry's numbers are in their ranges (R190). -/
abbrev GeometryInRange (cyls heads secs : Nat) : Prop :=
  1 ≤ cyls ∧ cyls ≤ 1020 ∧ 1 ≤ heads ∧ heads ≤ 16 ∧ 1 ≤ secs ∧ secs ≤ 64

section
variable {cyls heads secs : Nat}

theorem setGeometryReply_notPassive (hm : s.svc.mode ≠ .passive) :
    setGeometryReply cyls heads secs s = (s, refuse .state) :=
  if_pos (by simp [isPassive, hm])

variable (hm : s.svc.mode = .passive)
include hm

theorem setGeometryReply_passive : setGeometryReply cyls heads secs s =
    if ¬GeometryInRange cyls heads secs then (s, refuse .range)
    else if s.map.entries ≠ [] then (s, refuse .inUse)
    else ({ s with svc.geometry := some ⟨cyls, heads, secs⟩, map.staging := none }, doneWith [cyls, heads, secs]) :=
  if_neg (by simp [isPassive, hm])

theorem setGeometryReply_outOfRange (h : ¬GeometryInRange cyls heads secs) :
    setGeometryReply cyls heads secs s = (s, refuse .range) :=
  (setGeometryReply_passive hm).trans (if_pos h)

variable (h : GeometryInRange cyls heads secs)
include h

theorem setGeometryReply_inUse (hentries : s.map.entries ≠ []) :
    setGeometryReply cyls heads secs s = (s, refuse .inUse) :=
  (setGeometryReply_passive hm).trans ((if_neg (not_not_intro h)).trans (if_pos hentries))

theorem setGeometryReply_sets (hentries : s.map.entries = []) : setGeometryReply cyls heads secs s =
    ({ s with svc.geometry := some ⟨cyls, heads, secs⟩, map.staging := none }, doneWith [cyls, heads, secs]) :=
  (setGeometryReply_passive hm).trans ((if_neg (not_not_intro h)).trans (if_neg (not_not_intro hentries)))

end

/-- Settles O39: the judgements in their order, each with its answer. -/
theorem setGeometrySets : Obligations.SetGeometrySets := by
  intro dt tag cyls heads secs s haccepts
  obtain ⟨work, idle, hbegin⟩ := begin_changes dt s
  rw [hbegin]
  intro b inRange after
  have replies {t : State} {r : Reply} (hreply : setGeometryReply cyls heads secs (fieldEnds b) = (fieldEnds t, r)) :
      after (answered tag r.result.code (padTo 5 r.header ++ r.body) t) :=
    exec_replies haccepts rfl (by rw [hbegin]; exact hreply)
  refine ⟨fun hm => ?mode, fun hm hrange => ?range, fun hm hrange hentries => ?inUse,
    fun hm hrange hentries => ?sets⟩
  case mode => exact replies (r := refuse .state) (setGeometryReply_notPassive (s := fieldEnds b) hm)
  case range =>
    exact replies (r := refuse .range)
      (setGeometryReply_outOfRange (s := fieldEnds b) hm (of_decide_eq_false hrange))
  case inUse =>
    exact replies (r := refuse .inUse)
      (setGeometryReply_inUse (s := fieldEnds b) hm (of_decide_eq_true hrange) hentries)
  case sets =>
    exact replies (t := { b with svc.geometry := some ⟨cyls, heads, secs⟩, map.staging := none })
      (r := doneWith [cyls, heads, secs])
      (setGeometryReply_sets (s := fieldEnds b) hm (of_decide_eq_true hrange) hentries)

/-! ### The duty limiter under SET PARAMETERS -/

/-- The work or rest code of a parameter record differs from the record before (R145). -/
abbrev codesChanged (p old : Params) : Bool := decide (p.workCode ≠ old.workCode ∨ p.restCode ≠ old.restCode)

/-- The work counter after a change of the codes with no rest in progress: 0 where the limiter goes off or on (R145). -/
abbrev workAfter (p old : Params) (work : Nat) : Nat :=
  if codesChanged p old && (!limiterOn p || !limiterOn old) then 0 else work

theorem workAfter_le (p old : Params) (work : Nat) : workAfter p old work ≤ work := by
  unfold workAfter
  split
  · exact Nat.zero_le _
  · exact Nat.le_refl _

section
variable {p old : Params}

/-- With no rest in progress a change of the codes sets the work counter alone (R145). -/
theorem limiterActs_notResting (hp : s.svc.params = p) (hrest : s.drv.resting = false) :
    limiterActs old s = { s with drv.work := workAfter p old s.drv.work } := by
  unfold limiterActs workAfter
  rw [hp]
  by_cases hsame : p.workCode = old.workCode ∧ p.restCode = old.restCode
  · have hchanged : codesChanged p old = false := by simp [codesChanged, hsame]
    rw [if_pos hsame, hchanged]
    rfl
  · have hchanged : codesChanged p old = true := by
      rw [decide_eq_true_eq]
      exact not_and_or.1 hsame
    rw [if_neg hsame, hrest, hchanged]
    cases limiterOn p <;> cases limiterOn old <;> rfl

/-- The limiter bears on what is due by the rest alone that it makes due (R143). -/
theorem nothingDue_limiter {n : Nat} (h : NothingDue s)
    (hrest : restDue { s with svc.params := p, drv.work := n } = true → restDue s = true) :
    NothingDue { s with svc.params := p, drv.work := n } := by
  obtain ⟨hpass, hmeets, hlimit, hdue, hyields, hholder⟩ := (nothingDue_iff s).1 h
  refine (nothingDue_iff _).2 ⟨hpass, hmeets, hlimit, ?_, hyields, hholder⟩
  cases hnew : restDue { s with svc.params := p, drv.work := n } with
  | false => rfl
  | true =>
    rw [hrest hnew] at hdue
    exact hdue

/-- Rest is due under a limiter that is on, once the work duration is reached, while no rest is in progress (R143). -/
theorem restDue_iff : restDue s = true ↔
    limiterOn s.svc.params = true ∧ s.drv.resting = false ∧ codeDuration s.svc.params.workCode ≤ s.drv.work := by
  rw [restDue, Bool.and_eq_true, Bool.and_eq_true, Bool.not_eq_true', decide_eq_true_iff, and_assoc, workDuration]

/-- A rest that the new record would make due was due before: unchanged codes leave the limiter as it was, and
changed ones have their work duration still ahead (R145). -/
theorem restDue_of_params (hwork : codesChanged p s.svc.params = true →
      s.drv.work < codeDuration p.workCode ∨ limiterOn p = false)
    (h : restDue { s with svc.params := p, drv.work := workAfter p s.svc.params s.drv.work } = true) :
    restDue s = true := by
  obtain ⟨hon, hresting, hreached⟩ := restDue_iff.1 h
  have hstands : codeDuration p.workCode ≤ s.drv.work := hreached.trans (workAfter_le _ _ _)
  cases hchanged : codesChanged p s.svc.params with
  | false =>
    have hsame : p.workCode = s.svc.params.workCode ∧ p.restCode = s.svc.params.restCode := by
      simpa [codesChanged] using hchanged
    obtain ⟨hworkCode, hrestCode⟩ := hsame
    refine restDue_iff.2 ⟨?_, hresting, ?_⟩
    · simpa only [limiterOn, hworkCode, hrestCode] using hon
    · rwa [← hworkCode]
  | true =>
    rcases hwork hchanged with hahead | hoff
    · exact absurd hstands (Nat.not_le.2 hahead)
    · exact absurd hon (by simp [hoff])

end

/-- Settles O40: the record selected, the counter as the limiter's change leaves it, and nothing due behind it. -/
theorem setParametersSets : Obligations.SetParametersSets := by
  intro dt tag mask wl qi pt wc rc s haccepts
  obtain ⟨work, idle, hbegin⟩ := begin_changes dt s
  rw [hbegin]
  intro b pick p on changed hdue hrest hwork
  have hp : selectParams mask wl qi pt wc rc s.svc.params = p := by
    simp only [selectParams, clamp]
    rfl
  have hacts := limiterActs_notResting (s := { fieldEnds b with svc.params := p }) (old := s.svc.params) rfl hrest
  refine exec_settles (r := doneWith p.units) haccepts rfl ?_ (nothingDue_limiter hdue (restDue_of_params hwork))
  rw [hbegin]
  exact (congrArg (fun q => (limiterActs s.svc.params { fieldEnds b with svc.params := q }, doneWith q.units)) hp).trans
    (congrArg (fun t => (t, doneWith p.units)) hacts)

end Sys2Proof.Machine
end

section
/-!
PROOFS. The values of power-up (R201), and the invariants there.
-/

namespace Sys2Proof.Machine

/-! ### The state after power-up -/

/-- The NO COMMAND frame is the frame of its three units, its check word made by R9 (R178). -/
theorem noCommandFrame_eq (st : Straps) : noCommandFrame st = frameField st [0x3AC, 0, 10] := by
  have hwidth : 4096 ≤ 2 ^ st.bits := unitRange_le_words st
  have hdata : (padTo st.data [0x3AC, 0, 10]).map lowUnit = [0x3AC, 0, 10] ++ List.replicate (st.data - 3) 0 := by
    have hfits : 18 ≤ st.data - 8 := bodyUnits_ge st
    rw [padTo, List.take_of_length_le (by simp only [List.length_cons, List.length_nil]; omega), List.map_append,
      List.map_replicate]
    rfl
  have hsum : foldedSum st.bits ([0x3AC, 0, 10] ++ List.replicate (st.data - 3) 0) = 0x3AC + 10 := by
    rw [foldedSum_eq_residue (bits_pos st) (hdata ▸ frameData_lt st _)]
    simp only [List.sum_append, List.sum_replicate]
    exact residue_of_le (by simp; omega)
  rw [frameField, hdata, checkWord, hsum]
  rfl

/-- Ladder 0 is the factory ladder at power-up, and the others are empty (R86). -/
theorem ladderOf_poweredUp (straps : Straps) (lines : Lines) (q : List Instr) (k : Nat) :
    ladderOf (State.poweredUp straps lines q) k = if k = 0 then Ladder.factory else Ladder.empty := by
  cases k with
  | zero => rfl
  | succ k =>
    rw [ladderOf, State.poweredUp, List.getD_cons_succ, if_neg (Nat.succ_ne_zero k)]
    rcases Nat.lt_or_ge k 7 with hk | hk
    · rw [List.getD_replicate _ hk]
    · rw [List.getD_eq_default _ _ (by simpa using hk)]

/-- Settles O2: the values are those of the state that POWER_UP makes. -/
theorem powerUpValues : Obligations.PowerUpValues := by
  intro w n off rate rd oc pe fl pr s
  have hladder := ladderOf_poweredUp ⟨w, n, off, rate⟩ ⟨rd, oc, pe, fl, pr⟩ s.pending
  refine ⟨_, rfl, rfl, rfl, rfl, rfl, rfl, rfl, rfl, noCommandFrame_eq _, rfl, rfl, rfl, rfl, rfl, rfl, rfl, rfl, rfl,
    rfl, rfl, rfl, rfl, rfl, rfl, rfl, rfl, rfl, rfl, rfl, rfl, rfl, rfl, rfl, rfl, fun k _ => ?headers, rfl,
    fun k hk _ => ?rungs, ?_⟩
  case headers =>
    rw [hladder]
    split <;> exact ⟨rfl, rfl, rfl⟩
  case rungs =>
    rw [hladder, if_neg (Nat.one_le_iff_ne_zero.1 hk)]
    rfl
  and_intros
  all_goals rfl

/-! ### The invariants at reset -/

theorem headOk_fresh : HeadOk HeadRecord.fresh := by
  unfold HeadOk
  decide

/-- Settles O3: the log and the head records are at their power-up values, and the lists are empty. -/
theorem resetMeetsInvariants : Obligations.ResetMeetsInvariants := by
  refine ⟨logOk_empty (Nat.zero_le _), ⟨rfl, fun r hr => List.eq_of_mem_replicate hr ▸ headOk_fresh⟩, .nil,
    ⟨Nat.zero_le _, .nil, .nil⟩, fun a => ⟨nofun, nofun⟩, ⟨Nat.zero_le _, .nil, nofun⟩, nofun, ?operation,
    ⟨Nat.zero_le _, Nat.zero_le _⟩, ⟨fun h => absurd rfl h, nofun⟩, reset_store_wf⟩
  case operation => exact ⟨⟨nofun, nofun⟩, nofun, nofun, nofun⟩

end Sys2Proof.Machine
end

section
/-!
PROOFS. How a step of the block takes its command from the queue.
-/

namespace Sys2Proof.Machine

/-- With a command at the front of the queue, a step takes it off and carries it out on what is left. -/
theorem step_of_pending {c : Instr} {rest : List Instr} {s : State} (hfront : s.pending = c :: rest) :
    step s = exec c { s with pending := rest } := by
  rw [step, hfront]

/-- Settles O1: the queue is replaced twice, and only the second replacement is left. -/
theorem stepRunsFrontCommand : Obligations.StepRunsFrontCommand := fun c rest s =>
  step_of_pending (s := { s with pending := c :: rest }) rfl

end Sys2Proof.Machine
end
